-- ==== Sys2Proof/Word.lean ====
section
/-! DEFINITION. The word type of the GW482's messages and stored records: the byte (spec 07). -/

namespace Sys2Proof

/-- One character's 8 data bits on the link, and one byte of an area (R110, R150). -/
abbrev Byte := BitVec 8

end Sys2Proof
end

