-- ==== Sys2Proof/Syntax.lean ====
section
/-! DEFINITION. The commands of the GW482: one constructor for each row of spec/opcode_table.json. -/

namespace Sys2Proof

/-- The two channels (spec 00); their indices in messages are 0 (A) and 1 (B). -/
inductive Chan where
  | A
  | B
  deriving DecidableEq, Repr

/-- What the part reads at the event in which it executes a request: the level of WP (R157) and
whether SCLK is stopped (R50). -/
structure Pins where
  wp : Bool
  sclkStopped : Bool
  deriving DecidableEq, Repr

/-- What every request frame carries beside its fields: its sequence. `raw` is `none` for a frame
whose payload is the row's own fields; `some p` is a frame of the row's kind whose payload is `p`, which
spells no request of the row: a length outside Table 7-5, or a code that has no row (R132, R133). -/
structure Req where
  seq : Byte
  raw : Option (List Byte)
  pins : Pins
  deriving DecidableEq, Repr

/-- The levels on the plain lines in one sample period (R18, R55, R101). -/
structure Lines where
  sync : Bool
  trigA : Bool
  trigB : Bool
  gate : Bool
  deriving DecidableEq, Repr

/-- The levels of RATE1 and RATE0 at the end of a reset (R110). -/
structure Straps where
  rate1 : Bool
  rate0 : Bool
  deriving DecidableEq, Repr

/-- How a cold reset falls: how far the store operation in progress had got, in bytes programmed, chunks
erased or areas scanned (R150, R167), and for how many sample periods it is in effect (R109). -/
structure ColdSpan where
  progress : Nat
  periods : Nat
  deriving DecidableEq, Repr

/-- The commands. A request's fields have the widths of Table 7-7, so that out-of-range values can be
sent. -/
inductive Instr where
  /-- PING (R123). -/
  | ping (r : Req) (data : List Byte)
  /-- IDENTIFY (R124). -/
  | identify (r : Req)
  /-- STATUS (R125). -/
  | status (r : Req)
  /-- RESET with scope CHANNELS (R126). -/
  | resetChannels (r : Req)
  /-- RESET with scope FULL (R127). -/
  | resetFull (r : Req)
  /-- SLOT_SET (R8); the label length byte sent is the label's length. -/
  | slotSet (r : Req) (index : Byte) (word : BitVec 32) (offset : BitVec 16) (label : List Byte)
  /-- SLOT_CLEAR (R10). -/
  | slotClear (r : Req) (index : Byte)
  /-- SLOT_GET (R11). -/
  | slotGet (r : Req) (index : Byte)
  /-- EPOCH with mode NOW (R19). -/
  | epochNow (r : Req)
  /-- EPOCH with mode ARM_ONCE (R19). -/
  | epochArmOnce (r : Req)
  /-- EPOCH with mode ARM_EVERY (R19). -/
  | epochArmEvery (r : Req)
  /-- EPOCH with mode DISARM (R19). -/
  | epochDisarm (r : Req)
  /-- EPOCH_GET (R20). -/
  | epochGet (r : Req)
  /-- HOP_APPEND (R26); the entries are the bytes after the count, as encoded (R134). -/
  | hopAppend (r : Req) (channel : Byte) (count : Byte) (entries : List Byte)
  /-- HOP_FLUSH (R33). -/
  | hopFlush (r : Req) (channel : Byte)
  /-- QUEUE_GET (R37). -/
  | queueGet (r : Req) (channel : Byte) (first : Byte) (count : Byte)
  /-- START (R66). -/
  | start (r : Req) (channel : Byte)
  /-- STOP with mode AT_END (R67). -/
  | stopAtEnd (r : Req) (channel : Byte)
  /-- STOP with mode NOW (R67). -/
  | stopNow (r : Req) (channel : Byte)
  /-- CHANNEL_CONFIG (R71). -/
  | channelConfig (r : Req) (channel policy cycle edge : Byte) (ramp : BitVec 16) (follow : Byte)
      (pairTimeout : BitVec 24)
  /-- CHANNEL_GET (R72). -/
  | channelGet (r : Req) (channel : Byte)
  /-- GATE with action HOLD (R100). -/
  | gateHold (r : Req) (channel : Byte)
  /-- GATE with action RELEASE (R100). -/
  | gateRelease (r : Req) (channel : Byte)
  /-- REPORT_CONFIG (R147). -/
  | reportConfig (r : Req) (mask : BitVec 16)
  /-- STORE_ERASE (R158). -/
  | storeErase (r : Req) (area : Byte)
  /-- STORE_WRITE (R159). -/
  | storeWrite (r : Req) (area : Byte) (chunk : Byte) (data : List Byte)
  /-- STORE_COMMIT (R160). -/
  | storeCommit (r : Req) (area autostart channel startAfter : Byte)
  /-- STORE_REVOKE (R162). -/
  | storeRevoke (r : Req) (area : Byte)
  /-- STORE_READ (R163). -/
  | storeRead (r : Req) (area : Byte) (offset : BitVec 16) (length : Byte)
  /-- STORE_BLANK (R164). -/
  | storeBlank (r : Req) (area : Byte)
  /-- STORE_DIGEST (R165). -/
  | storeDigest (r : Req) (area first last : Byte)
  /-- STORE_INFO (R166). -/
  | storeInfo (r : Req)
  /-- LOAD (R170). -/
  | load (r : Req) (area channel startFlag : Byte)
  /-- An accepted frame whose kind is no request's (R116). -/
  | unknownKind (seq : Byte) (pins : Pins) (kind : Byte) (payload : List Byte)
  /-- A length byte above 240 (R112). -/
  | lengthFault (length : Byte)
  /-- A frame whose check value does not match (R111). -/
  | checkFault (kind seq : Byte) (payload : List Byte) (check : BitVec 16)
  /-- The gap after the last byte of a frame passes 20 character times (R113). -/
  | interbyteTimeout
  /-- RXD low for more than 2 character times: the row BREAK (R114). -/
  | rxBreak
  /-- The last character of the frame in transmission is sent (R122). -/
  | transmissionEnd
  /-- One step of autostart (R182). -/
  | autostartStep
  /-- The reset of a RESET FULL acts (R127); the straps are sampled (R110). -/
  | fullReset (straps : Straps) (sclkStopped : Bool)
  /-- Cold reset (R129). -/
  | coldReset (straps : Straps) (span : ColdSpan)
  /-- The scan of all areas ends (R168). -/
  | scanComplete
  /-- An erase completes (R158). -/
  | eraseComplete
  /-- A chunk write completes (R159). -/
  | writeComplete
  /-- The validation of a commit ends (R161). -/
  | validation
  /-- The commit record is written (R160). -/
  | commitComplete
  /-- The revoke record is written (R162). -/
  | revokeComplete
  /-- The load read ends (R173). -/
  | loadReadComplete (sclkStopped : Bool)
  /-- A dwell counter has reached 0 (R54). -/
  | dwellExpiry (c : Chan)
  /-- A pair timer has reached 0 (R82). -/
  | pairTimerExpiry (c : Chan)
  /-- A moving gate's gain has reached its target (R94). -/
  | gateArrival (c : Chan)
  /-- An edge of the configured kind on a channel's trigger line (R55). -/
  | triggerEdge (c : Chan)
  /-- The epoch count has reached a waited-on TIME value (R57). -/
  | timeArrival (c : Chan)
  /-- A rising edge on SYNC (R18). -/
  | syncEdge
  /-- The epoch count has wrapped (R15). -/
  | wrap
  /-- The sampled level of the GATE line takes effect (R101). -/
  | gateLineChange
  /-- One period of SCLK with the levels sampled in it (R14). -/
  | samplePeriod (lines : Lines)
  /-- One character on RXD (R111, R113); `stopHigh` is the sampled stop bit. -/
  | byteReceived (stopHigh : Bool) (byte : Byte) (pins : Pins)
  /-- Bytes of an area change by loss of retention (R150): offset and new value of each. -/
  | retentionLoss (area : Nat) (changes : List (Nat × Byte))
  deriving DecidableEq, Repr

end Sys2Proof
end

