-- ==== Sys2Proof/Decode.lean ====
section
/-! DEFINITION. Words that spell a command by the table's bits. spec/opcode_table.json gives no row any
bits, so there is none (assumption log 34). -/

namespace Sys2Proof

/-- The command a word spells: none, for no row of the table has bits. -/
def decodeTableWord (_nbits _w : Nat) : Option Instr := none

end Sys2Proof
end

