-- ==== Sys2Proof/Config.lean ====
section
/-! DEFINITION. The fixed values of the part (R124, R154, Table 7-1) and the free values: what the
manual leaves open although the part goes on. A free value is an opaque constant, so nothing can be
proved of it. -/

namespace Sys2Proof.Config

/-- Part code of IDENTIFY (R124). -/
def partCode : BitVec 16 := 0x0482#16
/-- Revision of IDENTIFY (R124). -/
def revision : Byte := 1#8
/-- Entries a channel queue holds at most (R24). -/
def queueCapacity : Nat := 64
/-- Ordinary reports the report queue holds at most (R138). -/
def reportCapacity : Nat := 16
/-- Reply slots, the window (R118). -/
def window : Nat := 4
/-- Entries of the retry cache at most (R120). -/
def cacheCapacity : Nat := 4
/-- The lead byte of a frame (Table 7-1). -/
def leadByte : Byte := 0xD3#8
/-- The longest payload (R112). -/
def maxPayload : Nat := 240
/-- The erase limit of an area (R154). -/
def eraseLimit : Nat := 20000
/-- Bytes of an area (R150). -/
def areaBytes : Nat := 4096
/-- Bytes of a chunk (R150). -/
def chunkBytes : Nat := 64
/-- Chunk 62 holds the commit record (Table 9-1). -/
def commitChunk : Nat := 62
/-- Chunk 63 holds the revoke record (Table 9-1). -/
def revokeChunk : Nat := 63
/-- Bytes the staging buffer holds at most (R169). -/
def stagingBytes : Nat := 1808
/-- The gain of an OPEN gate (R87). -/
def fullGain : Nat := 1024
/-- Every maskable report kind enabled (R147). -/
def fullMask : BitVec 16 := 0x04FE#16
/-- What an erased byte reads (R150). -/
def erased : Byte := 0xFF#8

/-- FREE VALUE. What a yes/no or channel byte other than 0 and 1 means in a commit record that is
intact by R136 (assumption log 19). -/
opaque strayCode : Byte → Bool

/-- FREE VALUE. What a read of an image gives at an offset past the end of its area, where an intact
commit record states an image length above 4,096 (assumption log 19). -/
opaque beyondArea : Nat → Byte

/-- FREE VALUE. What the loader reads at an image offset that the staged image does not reach, where an
intact commit record states an image length below the image's records or above 1,808 (assumption log 19). -/
opaque beyondStaging : Nat → Byte

end Sys2Proof.Config
end

