-- ==== Sys2Proof/Machine/State.lean ====
section
/-! DEFINITION. The state of the GW482, block by block, and its value right after a cold reset. -/

namespace Sys2Proof.Machine

/-- How the accumulator is set when a hop starts (R48). -/
inductive Mode where
  | continuous | restart | coherent
  deriving DecidableEq, Repr

/-- The start condition of an entry; `time` carries the entry's time field, which is present exactly
when the trigger is TIME (R22). -/
inductive Trigger where
  | after | line | time (at_ : BitVec 48) | paired
  deriving DecidableEq, Repr

/-- A hop entry, Table 2-1 (R22). -/
structure HopEntry where
  slot : Fin 48
  dwell : BitVec 24
  amplitude : BitVec 16
  mode : Mode
  trigger : Trigger
  blank : Bool
  report : Bool
  tag : Option (BitVec 16)
  deriving DecidableEq, Repr

/-- What a LOADED slot holds (R3). -/
structure Tone where
  word : BitVec 32
  offset : BitVec 16
  label : Option (List Byte)
  deriving DecidableEq, Repr

/-- A slot record with its pin count and reserved mark, Table 1-2; EMPTY is an absent tone (R3). -/
structure Slot where
  tone : Option Tone
  pins : Nat
  reserved : Bool
  deriving DecidableEq, Repr

/-- Arm states of the epoch block, Table 1-7. -/
inductive ArmState where
  | disarmed | once | every
  deriving DecidableEq, Repr

/-- The epoch block (R14, R18). `syncDue` and `wrapDue` mark a rising edge and a wrap of the present
sample period that SYNC_EDGE and WRAP have not taken yet (assumption log 8). -/
structure Epoch where
  count : BitVec 48
  arm : ArmState
  /-- Level of SYNC sampled last; none before the first sample after a reset (R18). -/
  syncLevel : Option Bool
  syncDue : Bool
  wrapDue : Bool
  /-- WRAP has been taken, and its report is still to be made as the period ends (R15; assumption log 11). -/
  wrapHeld : Bool
  deriving DecidableEq, Repr

/-- Underrun policies, Table 3-5. -/
inductive Policy where
  | hold | squelch | stop
  deriving DecidableEq, Repr

/-- Trigger edge kinds (R55). -/
inductive EdgeKind where
  | rising | falling | both
  deriving DecidableEq, Repr

/-- Channel configuration, Table 3-8. -/
structure ChanConfig where
  policy : Policy
  cycle : Bool
  edge : EdgeKind
  ramp : Nat
  follow : Bool
  pairTimeout : Nat
  deriving DecidableEq, Repr

/-- Where ENDING leads (R44). -/
inductive EndDest where
  | idle | waiting
  deriving DecidableEq, Repr

/-- Channel states, Table 3-1. -/
inductive ChanState where
  | idle | loading | waiting | dwell | overstay | switching | ending (dest : EndDest)
  deriving DecidableEq, Repr

/-- The hold set: each reason present or absent (R88). -/
structure HoldSet where
  host : Bool
  line : Bool
  blank : Bool
  ending : Bool
  noHop : Bool
  deriving DecidableEq, Repr

/-- Gate states, Table 5-1. -/
inductive GateState where
  | opened | closing | closed | opening
  deriving DecidableEq, Repr

/-- An output gate (R87). `periodGain` is the lowest gain held in the present period (R96). -/
structure Gate where
  st : GateState
  gain : Nat
  hold : HoldSet
  periodGain : Nat
  deriving DecidableEq, Repr

/-- One channel: hop engine (R44), queue (R24), pair unit (R74) and output gate (R87). -/
structure Channel where
  st : ChanState
  cur : Option HopEntry
  dwell : Nat
  stopAtEnd : Bool
  acc : BitVec 32
  cfg : ChanConfig
  /-- Level of the trigger line sampled last; none before the first sample after a reset (R73). -/
  trigLevel : Option Bool
  /-- An edge of the kind configured when the line was sampled, in the present period, that TRIGGER_EDGE
  has not taken yet (R71; assumption log 8). -/
  edgeDue : Bool
  queue : List HopEntry
  /-- The head offered is the current hop itself (R38). -/
  selfHead : Bool
  ready : Bool
  /-- The pair timer, while running (R74). -/
  timer : Option Nat
  gate : Gate
  /-- The tone of a COHERENT switch of the present sample period whose phase the accumulator holds
  (assumption log 10). -/
  coherentNow : Option Tone
  deriving DecidableEq, Repr

/-- POWER_UP causes, Table 7-6. -/
inductive ResetCause where
  | cold | request
  deriving DecidableEq, Repr

/-- EPOCH_EVENT causes, Table 7-6. -/
inductive EpochCause where
  | request | sync | wrap
  deriving DecidableEq, Repr

/-- LINK_FAULT reasons, Table 7-6. -/
inductive FaultReason where
  | length | timeout | check | break_ | overrun
  deriving DecidableEq, Repr

/-- Area states (R151). -/
inductive AreaState where
  | blank | opened | valid | damaged
  deriving DecidableEq, Repr

/-- Operations named in STORE_DONE, Table 7-6. -/
inductive StoreKind where
  | erase | write | commit | revoke
  deriving DecidableEq, Repr

/-- Status codes, Table 7-4. -/
inductive Status where
  | ok | started | badLength | badValue | unknownKind | windowFull | slotPinned | slotEmpty | queueFull
  | dwellShort | channelBusy | notIdle | storeBusy | storeProtected | areaState | notBlank | worn
  | imageInvalid | corrupt | slotConflict | cancelled
  deriving DecidableEq, Repr

/-- The kind and fields of a report, Table 7-11, less the repeat count. -/
inductive ReportBody where
  | powerUp (cause : ResetCause) (areas : List AreaState)
  | hopBegin (c : Chan) (slot : Fin 48) (tag : Option (BitVec 16)) (count : BitVec 48)
  | underrun (c : Chan) (policy : Policy)
  | lateStart (c : Chan) (tag : Option (BitVec 16)) (lateness : BitVec 48)
  | channelState (c : Chan) (st : ChanState)
  | gateState (c : Chan) (st : GateState) (hold : HoldSet)
  | epochEvent (cause : EpochCause)
  | pairTimeout (c : Chan) (tag : Option (BitVec 16))
  | storeDone (seq : Byte) (op : StoreKind) (area : Fin 8) (status : Status) (reason : Byte)
      (offset : BitVec 16)
  | loadDone (seq : Byte) (c : Chan) (area : Fin 8) (status : Status) (detail : Byte)
  | linkFault (reason : FaultReason)
  | reportsLost (count : Nat)
  deriving DecidableEq, Repr

/-- A report waiting in the report block; the repeat count matters for the MERGE class alone (R137). -/
structure Report where
  body : ReportBody
  repeats : Nat
  deriving DecidableEq, Repr

/-- The report block (R137). -/
structure ReportBlock where
  queue : List Report
  completion : Option Report
  lost : Nat
  nextSeq : Byte
  mask : BitVec 16
  isOpen : Bool
  /-- How many of the HOP_BEGIN reports that wait, the last ones, were made in the present sample period
  (assumption log 10). -/
  begun : Nat
  deriving DecidableEq, Repr

/-- Receiver states, Table 6-2. -/
inductive RxState where
  | hunt | length | kind | seq | payload | checkHi | checkLo
  deriving DecidableEq, Repr

/-- A reply with the request it answers (R118). `full` marks the reply of a taken RESET FULL (R127). -/
structure Reply where
  seq : Byte
  check : BitVec 16
  frame : List Byte
  full : Bool
  deriving DecidableEq, Repr

/-- What a reply slot or the refusal slot holds, and what is in transmission (R118, R119, R122). -/
inductive Outgoing where
  | reply (r : Reply)
  | refusal (frame : List Byte)
  | report (frame : List Byte)
  deriving DecidableEq, Repr

/-- An entry of the retry cache (R120). -/
structure CacheEntry where
  seq : Byte
  check : BitVec 16
  frame : List Byte
  deriving DecidableEq, Repr

/-- Link rates, Table 6-1. -/
inductive LinkRate where
  | r115200 | r460800 | r921600 | r2000000
  deriving DecidableEq, Repr

/-- The link: receiver (R111), reply slots and refusal slot in order of filling (R118, R119), frame in
transmission (R122), retry cache, oldest first (R120), link rate (R110), and what RESET FULL sets
(R127, R128). -/
structure Link where
  rx : RxState
  /-- The bytes kept after the lead byte (R111). -/
  buf : List Byte
  deaf : Bool
  waiting : List Outgoing
  tx : Option Outgoing
  cache : List CacheEntry
  rate : LinkRate
  /-- The last character of the RESET FULL reply has been sent, and the reset has not acted yet. -/
  fullResetDue : Bool
  deriving DecidableEq, Repr

/-- Intent markers (R153). -/
inductive Marker where
  | none | erasing | writing | committing | revoking
  deriving DecidableEq, Repr

/-- A commit record, parsed (R152). -/
structure CommitRec where
  imageLength : BitVec 16
  imageCrc : BitVec 16
  slotUse : BitVec 48
  slotCount : Byte
  hopCount : Byte
  autostart : Bool
  chan : Chan
  startAfter : Bool
  deriving DecidableEq, Repr

/-- A directory record (R152); `written` is rising. -/
structure Dir where
  st : AreaState
  marker : Marker
  eraseCount : Nat
  written : List Nat
  commit : Option CommitRec
  revoked : Bool
  deriving DecidableEq, Repr

/-- Store engine states, Table 9-4. -/
inductive EngineState where
  | idle | scanning | erasing | writing | committing | revoking | reading
  deriving DecidableEq, Repr

/-- The operation in progress (R155), from acceptance to its completion event. A commit carries the
fields of its request and, once validation has passed, the record it writes (R160). -/
inductive StoreOp where
  | scan (cause : ResetCause)
  | erase (area : Fin 8) (seq : Byte)
  | write (area : Fin 8) (seq : Byte) (chunk : Nat) (data : List Byte)
  | commit (area : Fin 8) (seq : Byte) (autostart : Bool) (chan : Chan) (startAfter : Bool)
      (record : Option CommitRec)
  | revoke (area : Fin 8) (seq : Byte)
  deriving DecidableEq, Repr

/-- The profile store (R150, R152, R155). `mem` lists, by rising address 4,096 × area + offset, the
bytes that are not 0xFF. -/
structure Store where
  mem : List Host.Cell
  dirs : Vector Dir 8
  engine : EngineState
  op : Option StoreOp
  deriving DecidableEq, Repr

/-- The load context (R169). -/
structure LoadCtx where
  area : Fin 8
  chan : Chan
  start : Bool
  seq : Byte
  deriving DecidableEq, Repr

/-- An area of the autostart list (R181), with the channel it named when the list was formed. -/
structure AutoArea where
  area : Fin 8
  chosen : Bool
  chan : Chan
  deriving DecidableEq, Repr

/-- The loader (R169). -/
structure Loader where
  ctx : Option LoadCtx
  staging : List Byte
  auto : List AutoArea
  autoPos : Nat
  deriving DecidableEq, Repr

/-- The sample outputs (R109). -/
structure Ports where
  douta : BitVec 16
  doutb : BitVec 16
  /-- The samples of the sample period before the present one, which nothing changes any more
  (assumption log 28). -/
  priorA : BitVec 16
  priorB : BitVec 16
  /-- DSTRB pulses given so far (assumption log 28). -/
  strobes : Nat
  /-- The last sample period is still running, so that the sample on the ports may still change; SCLK
  is not known to be stopped (assumption log 9). -/
  periodOpen : Bool
  deriving DecidableEq, Repr

/-- The machine. -/
structure State where
  slots : Vector Slot 48
  epoch : Epoch
  chA : Channel
  chB : Channel
  /-- The last sample the gates have taken of the GATE line (R101). -/
  gateLine : Bool
  /-- The level on the GATE line in the present period, which GATE_LINE_CHANGE takes (log 30). -/
  gatePin : Bool
  ports : Ports
  reports : ReportBlock
  link : Link
  store : Store
  loader : Loader
  /-- The commands that are waiting, first in, first out. -/
  pending : List Instr
  deriving DecidableEq, Repr

/-- Why the machine stops. -/
inductive Fault where
  /-- Raised by RETENTION_LOSS alone, where its operand names an area above 7 or an offset above 4,095:
  the spec gives no such byte (R150). Safe. -/
  | noSuchByte
  deriving DecidableEq, Repr

/-- Why a command has no meaning. -/
inductive Refusal where
  /-- Answered by a row of the table that has no meaning yet; no row is left so. Safe. -/
  | notModelled (mnemonic : String)
  deriving DecidableEq, Repr

/-- The defaults of Table 3-8. -/
def ChanConfig.default : ChanConfig :=
  { policy := .hold, cycle := false, edge := .rising, ramp := 64, follow := false, pairTimeout := 0 }

/-- The hold set of a gate whose channel has no hop and which nothing else holds (R104). -/
def HoldSet.noHopOnly : HoldSet :=
  { host := false, line := false, blank := false, ending := false, noHop := true }

/-- A gate after a cold or FULL reset (R104). -/
def Gate.reset : Gate :=
  { st := .closed, gain := 0, hold := HoldSet.noHopOnly, periodGain := 0 }

/-- A channel after a cold or FULL reset (R43, R73, R86, R104). -/
def Channel.reset : Channel :=
  { st := .idle, cur := none, dwell := 0, stopAtEnd := false, acc := 0#32, cfg := ChanConfig.default,
    trigLevel := none, edgeDue := false, queue := [], selfHead := false, ready := false, timer := none,
    gate := Gate.reset, coherentNow := none }

/-- A slot after a cold or FULL reset (R13). -/
def Slot.reset : Slot := { tone := none, pins := 0, reserved := false }

/-- The epoch block after a cold or FULL reset (R21). -/
def Epoch.reset : Epoch :=
  { count := 0#48, arm := .disarmed, syncLevel := none, syncDue := false, wrapDue := false,
    wrapHeld := false }

/-- The report block after a cold or FULL reset (R149). -/
def ReportBlock.reset : ReportBlock :=
  { queue := [], completion := none, lost := 0, nextSeq := 0#8, mask := Config.fullMask, isOpen := false,
    begun := 0 }

/-- The link after a cold or FULL reset, at the rate the straps give (R129). -/
def Link.reset (rate : LinkRate) : Link :=
  { rx := .hunt, buf := [], deaf := false, waiting := [], tx := none, cache := [], rate := rate,
    fullResetDue := false }

/-- The loader after a cold or FULL reset (Table 10-3). -/
def Loader.reset : Loader := { ctx := none, staging := [], auto := [], autoPos := 0 }

/-- The directory record of an area that has never been used (assumption log 2). -/
def Dir.unused : Dir :=
  { st := .blank, marker := .none, eraseCount := 0, written := [], commit := none, revoked := false }

/-- The ports after a cold reset (R109), with the DSTRB pulses given so far. -/
def Ports.reset (strobes : Nat) : Ports :=
  { douta := 0#16, doutb := 0#16, priorA := 0#16, priorB := 0#16, strobes := strobes,
    periodOpen := false }

/-- The machine right after a cold reset: every block at its reset value, the scan begun (R168), the
straps low (assumption log 1) and the store never used (assumption log 2). -/
def State.reset : State :=
  { slots := Vector.replicate 48 Slot.reset, epoch := Epoch.reset, chA := Channel.reset,
    chB := Channel.reset, gateLine := false, gatePin := false,
    ports := Ports.reset 0,
    reports := ReportBlock.reset, link := Link.reset .r115200,
    store := { mem := [], dirs := Vector.replicate 8 Dir.unused, engine := .scanning,
               op := some (.scan .cold) },
    loader := Loader.reset, pending := [] }

end Sys2Proof.Machine
end

