-- ==== Sys2Proof/Machine/Operands.lean ====
section
/-! DEFINITION. Operand forms: big-endian fields, the check value, request kinds, field codes as they
are read, hop entries and the records of a program image (spec 07). -/

namespace Sys2Proof.Machine

/-! Big-endian fields (spec 00, Byte order). -/

/-- One byte holding a count. -/
def b8 (n : Nat) : Byte := BitVec.ofNat 8 n

/-- The two bytes of a 16-bit field, high byte first. -/
def be16 (v : BitVec 16) : List Byte := [v.extractLsb' 8 8, v.extractLsb' 0 8]

/-- The three bytes of a 24-bit field, high byte first. -/
def be24 (v : BitVec 24) : List Byte := [v.extractLsb' 16 8, v.extractLsb' 8 8, v.extractLsb' 0 8]

/-- The four bytes of a 32-bit field, high byte first. -/
def be32 (v : BitVec 32) : List Byte := be16 (v.extractLsb' 16 16) ++ be16 (v.extractLsb' 0 16)

/-- The six bytes of a 48-bit field, high byte first. -/
def be48 (v : BitVec 48) : List Byte := be16 (v.extractLsb' 32 16) ++ be32 (v.extractLsb' 0 32)

/-- The byte at an offset of a structure held as a list of bytes. -/
def byteAt (p : List Byte) (i : Nat) : Byte := p.getD i 0#8

/-- The 16-bit field at an offset. -/
def u16At (p : Nat → Byte) (i : Nat) : BitVec 16 := p i ++ p (i + 1)

/-- The 24-bit field at an offset. -/
def u24At (p : Nat → Byte) (i : Nat) : BitVec 24 := p i ++ u16At p (i + 1)

/-- The 32-bit field at an offset. -/
def u32At (p : Nat → Byte) (i : Nat) : BitVec 32 := u16At p i ++ u16At p (i + 2)

/-- The 48-bit field at an offset. -/
def u48At (p : Nat → Byte) (i : Nat) : BitVec 48 := u16At p i ++ u32At p (i + 2)

/-! The check value (spec 00, Check value): polynomial x^16 + x^12 + x^5 + 1, initial value 0xFFFF, no
reflection, no final exclusive-or. -/

/-- One bit of the division. -/
def crcShift (c : BitVec 16) : BitVec 16 :=
  if c.msb then (c <<< 1) ^^^ 0x1021#16 else c <<< 1

/-- One byte of the division. -/
def crcByte (c : BitVec 16) (b : Byte) : BitVec 16 :=
  let c := c ^^^ (b ++ 0#8)
  crcShift (crcShift (crcShift (crcShift (crcShift (crcShift (crcShift (crcShift c)))))))

/-- CRC-16 of a list of bytes. -/
def crc16 (bs : List Byte) : BitVec 16 := bs.foldl crcByte 0xFFFF#16

/-! Frames (R130, Table 7-1). -/

/-- The check value of a frame: the CRC of its length, kind, sequence and payload bytes. -/
def frameCheck (kind seq : Byte) (payload : List Byte) : BitVec 16 :=
  crc16 (b8 payload.length :: kind :: seq :: payload)

/-- A frame as it stands on the line (Table 7-1). -/
def mkFrame (kind seq : Byte) (payload : List Byte) : List Byte :=
  Config.leadByte :: b8 payload.length :: kind :: seq :: payload ++ be16 (frameCheck kind seq payload)

/-! Request kinds (Table 7-2). -/

/-- The kinds of request. -/
inductive Kind where
  | ping | identify | status | reset | slotSet | slotClear | slotGet | epoch | epochGet | hopAppend
  | hopFlush | queueGet | start | stop | channelConfig | channelGet | gate | reportConfig | storeErase
  | storeWrite | storeCommit | storeRevoke | storeRead | storeBlank | storeDigest | storeInfo | load
  deriving DecidableEq, Repr

/-- The kind code of a request (Table 7-2). -/
def kindCode : Kind → Byte
  | .ping => 0x01#8 | .identify => 0x02#8 | .status => 0x03#8 | .reset => 0x04#8 | .slotSet => 0x08#8
  | .slotClear => 0x09#8 | .slotGet => 0x0A#8 | .epoch => 0x0C#8 | .epochGet => 0x0D#8
  | .hopAppend => 0x10#8 | .hopFlush => 0x11#8 | .queueGet => 0x12#8 | .start => 0x14#8
  | .stop => 0x15#8 | .channelConfig => 0x16#8 | .channelGet => 0x17#8 | .gate => 0x18#8
  | .reportConfig => 0x1C#8 | .storeErase => 0x20#8 | .storeWrite => 0x21#8 | .storeCommit => 0x22#8
  | .storeRevoke => 0x23#8 | .storeRead => 0x24#8 | .storeBlank => 0x25#8 | .storeDigest => 0x26#8
  | .storeInfo => 0x27#8 | .load => 0x28#8

/-- Every kind of request, in the order of Table 7-2. -/
def allKinds : List Kind :=
  [.ping, .identify, .status, .reset, .slotSet, .slotClear, .slotGet, .epoch, .epochGet] ++
  [.hopAppend, .hopFlush, .queueGet, .start, .stop, .channelConfig, .channelGet, .gate, .reportConfig] ++
  [.storeErase, .storeWrite, .storeCommit, .storeRevoke, .storeRead, .storeBlank, .storeDigest] ++
  [.storeInfo, .load]

/-- The request a kind byte names, if any (R116). -/
def kindOf (b : Byte) : Option Kind := allKinds.find? fun k => kindCode k == b

/-- The reply kind: the request's kind plus 0x40 (R130). -/
def replyKind (k : Kind) : Byte := kindCode k + 0x40#8

/-- The generic check of a payload's length, Table 7-5 (R132). -/
def lengthFits (k : Kind) (p : List Byte) : Bool :=
  let n := p.length
  match k with
  | .ping => n ≤ Config.maxPayload
  | .identify | .status | .epochGet | .storeInfo => n == 0
  | .reset | .slotClear | .slotGet | .epoch | .hopFlush | .start | .channelGet | .storeErase
  | .storeRevoke | .storeBlank => n == 1
  | .stop | .gate | .reportConfig => n == 2
  | .queueGet | .storeDigest | .load => n == 3
  | .storeCommit | .storeRead => n == 4
  | .slotSet => decide (8 ≤ n) && decide ((byteAt p 7).toNat ≤ 8) && (n == 8 + (byteAt p 7).toNat)
  | .channelConfig => n == 10
  | .storeWrite => n == 66
  | .hopAppend => decide (2 ≤ n) && decide (n ≤ 122)

/-! Field codes as they are read (Table 7-6, R133): `none` where the code is not listed. -/

/-- A channel field. -/
def chanOf (b : Byte) : Option Chan :=
  if b = 0#8 then some .A else if b = 1#8 then some .B else none

/-- A yes/no field. -/
def yesNo (b : Byte) : Option Bool :=
  if b = 0#8 then some false else if b = 1#8 then some true else none

/-- A slot index, 0 to 47. -/
def slotOf (b : Byte) : Option (Fin 48) := if h : b.toNat < 48 then some ⟨b.toNat, h⟩ else none

/-- An area, 0 to 7. -/
def areaOf (b : Byte) : Option (Fin 8) := if h : b.toNat < 8 then some ⟨b.toNat, h⟩ else none

/-- An underrun policy. -/
def policyOf (b : Byte) : Option Policy :=
  if b = 0#8 then some .hold else if b = 1#8 then some .squelch else if b = 2#8 then some .stop else none

/-- A trigger edge. -/
def edgeOf (b : Byte) : Option EdgeKind :=
  if b = 0#8 then some .rising else if b = 1#8 then some .falling else if b = 2#8 then some .both
  else none

/-- A printable character, 0x20 to 0x7E (R4). -/
def printable (b : Byte) : Bool := decide (0x20 ≤ b.toNat) && decide (b.toNat ≤ 0x7E)

/-- A label as it is stored: absent when its length is 0 (R4). -/
def labelOf (chars : List Byte) : Option (List Byte) := if chars.isEmpty then none else some chars

/-! Hop entries (R134, Table 7-10). -/

/-- The bytes an encoded entry takes, by its flags byte (R134). -/
def entryLength (flags : Byte) : Nat :=
  7 + (if flags.getLsbD 6 then 6 else 0) + (if flags.getLsbD 7 then 2 else 0)

/-- The fields of an encoded entry or a hop record before they are checked. -/
structure RawEntry where
  slot : Byte
  flags : Byte
  dwell : BitVec 24
  amplitude : BitVec 16
  time : BitVec 48
  tag : BitVec 16
  deriving DecidableEq, Repr

/-- The fields of an entry in the variable-length encoding (Table 7-10). -/
def wireEntry (bs : List Byte) : RawEntry :=
  let p := byteAt bs
  { slot := p 0, flags := p 1, dwell := u24At p 2, amplitude := u16At p 5, time := u48At p 7,
    tag := u16At p (if (p 1).getLsbD 6 then 13 else 7) }

/-- The fields of a hop record at an offset of an image (Table 7-15). -/
def hopRecord (img : Nat → Byte) (base : Nat) : RawEntry :=
  let p := fun i => img (base + i)
  { slot := p 0, flags := p 1, dwell := u24At p 2, amplitude := u16At p 5, time := u48At p 7,
    tag := u16At p 13 }

/-- The mode bits (Table 7-10): 3 is reserved. -/
def modeOf (flags : Byte) : Option Mode :=
  match (flags.extractLsb' 0 2).toNat with
  | 0 => some .continuous
  | 1 => some .restart
  | 2 => some .coherent
  | _ => none

/-- The trigger bits, with the time field, which must be present exactly for TIME (R28). -/
def triggerOf (flags : Byte) (time : BitVec 48) : Option Trigger :=
  match (flags.extractLsb' 2 2).toNat, flags.getLsbD 6 with
  | 0, false => some .after
  | 1, false => some .line
  | 2, true => some (.time time)
  | 3, false => some .paired
  | _, _ => none

/-- The range tests of R28 that do not look at the slot; `none` where one fails. -/
def entryWithSlot (slot : Fin 48) (r : RawEntry) : Option HopEntry :=
  match modeOf r.flags, triggerOf r.flags r.time with
  | some mode, some trigger =>
    if r.dwell = 0#24 then none
    else if 32767 < r.amplitude.toNat then none
    else some { slot := slot, dwell := r.dwell, amplitude := r.amplitude, mode := mode,
                trigger := trigger, blank := r.flags.getLsbD 4, report := r.flags.getLsbD 5,
                tag := if r.flags.getLsbD 7 then some r.tag else none }
  | _, _ => none

/-- Check 3 of HOP_APPEND on one entry (R28). -/
def entryOf (r : RawEntry) : Option HopEntry :=
  match slotOf r.slot with
  | some i => entryWithSlot i r
  | none => none

/-- Parses exactly `n` encoded entries, the first being entry `i`: the encoded entries, or the index
check 2 reports (R27, R134). -/
def splitEntries : Nat → Nat → List Byte → Except Nat (List (List Byte))
  | 0, i, bs => if bs.isEmpty then .ok [] else .error (i - 1)
  | n + 1, i, bs =>
    let len := entryLength (byteAt bs 1)
    if bs.length < 2 || bs.length < len then .error i
    else match splitEntries n (i + 1) (bs.drop len) with
      | .ok rest => .ok (bs.take len :: rest)
      | .error j => .error j

/-- The mode code (Table 7-10). -/
def modeCode : Mode → Nat
  | .continuous => 0 | .restart => 1 | .coherent => 2

/-- The trigger code (Table 7-10). -/
def triggerCode : Trigger → Nat
  | .after => 0 | .line => 1 | .time _ => 2 | .paired => 3

/-- The time field, if the trigger is TIME. -/
def triggerTime : Trigger → Option (BitVec 48)
  | .time t => some t
  | _ => none

/-- The flags byte of an entry (Table 7-10). -/
def entryFlags (e : HopEntry) : Byte :=
  BitVec.ofNat 8 (modeCode e.mode + 4 * triggerCode e.trigger + 16 * e.blank.toNat +
    32 * e.report.toNat + 64 * (triggerTime e.trigger).isSome.toNat + 128 * e.tag.isSome.toNat)

/-- An entry in the variable-length encoding (Table 7-10). -/
def encodeEntry (e : HopEntry) : List Byte :=
  [b8 e.slot.val, entryFlags e] ++ be24 e.dwell ++ be16 e.amplitude ++
    ((triggerTime e.trigger).map be48).getD [] ++ (e.tag.map be16).getD []

/-! The program image (R135, Tables 7-13 to 7-15). -/

/-- The image header's slot count. -/
def imageSlots (img : Nat → Byte) : Nat := (img 3).toNat

/-- The image header's hop count. -/
def imageHops (img : Nat → Byte) : Nat := (img 4).toNat

/-- Where slot record i begins (R135). -/
def slotRecordAt (i : Nat) : Nat := 16 + 16 * i

/-- Where hop record j begins (R135). -/
def hopRecordAt (slots j : Nat) : Nat := 16 + 16 * (slots + j)

/-- The image CRC: header bytes 0 to 13 and bytes 16 to length − 1 (R135). -/
def imageCrc (img : Nat → Byte) (length : Nat) : BitVec 16 :=
  crc16 ((List.range 14).map img ++ (List.range' 16 (length - 16)).map img)

/-- A slot record (Table 7-14). -/
structure SlotRecord where
  index : Byte
  word : BitVec 32
  offset : BitVec 16
  labelLength : Byte
  chars : List Byte
  deriving DecidableEq, Repr

/-- The slot record at an offset of an image; only the first label-length characters are used. -/
def slotRecord (img : Nat → Byte) (base : Nat) : SlotRecord :=
  let p := fun i => img (base + i)
  { index := p 0, word := u32At p 1, offset := u16At p 5, labelLength := p 7,
    chars := (List.range (min 8 (p 7).toNat)).map fun i => p (8 + i) }

/-- The slot a record writes, where its index, word and label pass reasons 6 and 8 (R161). -/
def toneOfRecord (r : SlotRecord) : Option (Fin 48 × Tone) :=
  match slotOf r.index with
  | none => none
  | some i =>
    if r.word = 0#32 || decide (8 < r.labelLength.toNat) || !r.chars.all printable then none
    else some (i, { word := r.word, offset := r.offset, label := labelOf r.chars })

/-- A parsed program: what an apply writes and appends (R178). -/
structure Program where
  slots : List (Fin 48 × Tone)
  hops : List HopEntry
  deriving DecidableEq, Repr

/-- Tests 6 of R161 over the slot records still to test, the first being record i: the reason and the
offset of the first failure, or the slots. -/
def testSlots (img : Nat → Byte) : Nat → Nat → List (Fin 48) → Except (Nat × Nat) (List (Fin 48 × Tone))
  | 0, _, _ => .ok []
  | n + 1, i, seen =>
    let r := slotRecord img (slotRecordAt i)
    match slotOf r.index with
    | none => .error (6, slotRecordAt i)
    | some k =>
      if seen.contains k then .error (7, slotRecordAt i)
      else match toneOfRecord r with
        | none => .error (8, slotRecordAt i)
        | some t =>
          match testSlots img n (i + 1) (k :: seen) with
          | .ok rest => .ok (t :: rest)
          | .error e => .error e

/-- Tests 7 of R161 over the hop records still to test, the first being record j. -/
def testHops (img : Nat → Byte) (slots : Nat) (declared : List (Fin 48)) :
    Nat → Nat → Except (Nat × Nat) (List HopEntry)
  | 0, _ => .ok []
  | n + 1, j =>
    let r := hopRecord img (hopRecordAt slots j)
    match slotOf r.slot with
    | none => .error (9, hopRecordAt slots j)
    | some k =>
      if !declared.contains k then .error (9, hopRecordAt slots j)
      else match entryWithSlot k r with
        | none => .error (10, hopRecordAt slots j)
        | some e =>
          match testHops img slots declared n (j + 1) with
          | .ok rest => .ok (e :: rest)
          | .error err => .error err

/-- The records of an image whose header gives these counts, tested as tests 6 and 7 of R161. -/
def parseRecords (img : Nat → Byte) : Except (Nat × Nat) Program :=
  match testSlots img (imageSlots img) 0 [] with
  | .error e => .error e
  | .ok slots =>
    match testHops img (imageSlots img) (slots.map Prod.fst) (imageHops img) 0 with
    | .error e => .error e
    | .ok hops => .ok { slots := slots, hops := hops }

/-- The counts of an image header are in the ranges of Table 7-13 (test 3 of R161). -/
def countsInRange (img : Nat → Byte) : Bool :=
  decide (imageSlots img ≤ 48) && decide (imageHops img ≠ 0) && decide (imageHops img ≤ 64)

/-- The program in a staged image, if its records read as a program (R174; assumption log 20). -/
def programIn (img : Nat → Byte) : Option Program :=
  if countsInRange img then (parseRecords img).toOption else none

/-- Commit validation in the order of Table 9-7: the reason and offset of the first test that fails,
or the program (R161). -/
def validateImage (img : Nat → Byte) : Except (Nat × Nat) Program :=
  if img 0 ≠ 0x47#8 ∨ img 1 ≠ 0x57#8 then .error (1, 0)
  else if img 2 ≠ 1#8 then .error (2, 0)
  else if !countsInRange img then .error (3, 0)
  else if (u16At img 6).toNat ≠ 16 + 16 * (imageSlots img + imageHops img) then .error (4, 0)
  else if imageCrc img (u16At img 6).toNat ≠ u16At img 14 then .error (5, 0)
  else parseRecords img

end Sys2Proof.Machine
end

