-- ==== Sys2Proof/Machine/Flags.lean ====
section
/-! DEFINITION. The codes of the part's states, flags and statuses as it sends them (Tables 7-4, 7-6),
and the payloads of its reports (Table 7-11) and stored records (Tables 7-16, 7-17). -/

namespace Sys2Proof.Machine

/-- A yes/no field as sent. -/
def boolCode (b : Bool) : Byte := if b then 1#8 else 0#8

/-- A channel as sent. -/
def chanCode : Chan → Byte
  | .A => 0#8 | .B => 1#8

/-- A status code (Table 7-4). -/
def statusCode : Status → Byte
  | .ok => 0x00#8 | .started => 0x01#8 | .badLength => 0x10#8 | .badValue => 0x11#8
  | .unknownKind => 0x12#8 | .windowFull => 0x13#8 | .slotPinned => 0x20#8 | .slotEmpty => 0x21#8
  | .queueFull => 0x22#8 | .dwellShort => 0x23#8 | .channelBusy => 0x24#8 | .notIdle => 0x25#8
  | .storeBusy => 0x30#8 | .storeProtected => 0x31#8 | .areaState => 0x32#8 | .notBlank => 0x33#8
  | .worn => 0x34#8 | .imageInvalid => 0x35#8 | .corrupt => 0x36#8 | .slotConflict => 0x37#8
  | .cancelled => 0x38#8

/-- A channel state with its destination (R45). -/
def chanStateCode : ChanState → Byte
  | .idle => 0#8 | .loading => 1#8 | .waiting => 2#8 | .dwell => 3#8 | .overstay => 4#8
  | .switching => 5#8 | .ending .idle => 6#8 | .ending .waiting => 7#8

/-- A gate state. -/
def gateStateCode : GateState → Byte
  | .opened => 0#8 | .closing => 1#8 | .closed => 2#8 | .opening => 3#8

/-- A hold set: bit 0 HOST, bit 1 LINE, bit 2 BLANK, bit 3 ENDING, bit 4 NO_HOP. -/
def holdCode (h : HoldSet) : Byte :=
  BitVec.ofNat 8 (h.host.toNat + 2 * h.line.toNat + 4 * h.blank.toNat + 8 * h.ending.toNat +
    16 * h.noHop.toNat)

/-- An arm state. -/
def armCode : ArmState → Byte
  | .disarmed => 0#8 | .once => 1#8 | .every => 2#8

/-- An underrun policy. -/
def policyCode : Policy → Byte
  | .hold => 0#8 | .squelch => 1#8 | .stop => 2#8

/-- A trigger edge. -/
def edgeCode : EdgeKind → Byte
  | .rising => 0#8 | .falling => 1#8 | .both => 2#8

/-- An area state. -/
def areaStateCode : AreaState → Byte
  | .blank => 0#8 | .opened => 1#8 | .valid => 2#8 | .damaged => 3#8

/-- A store engine state. -/
def engineCode : EngineState → Byte
  | .idle => 0#8 | .scanning => 1#8 | .erasing => 2#8 | .writing => 3#8 | .committing => 4#8
  | .revoking => 5#8 | .reading => 6#8

/-- A store operation. -/
def storeKindCode : StoreKind → Byte
  | .erase => 0#8 | .write => 1#8 | .commit => 2#8 | .revoke => 3#8

/-- A POWER_UP cause. -/
def resetCauseCode : ResetCause → Byte
  | .cold => 0#8 | .request => 1#8

/-- An EPOCH_EVENT cause. -/
def epochCauseCode : EpochCause → Byte
  | .request => 0#8 | .sync => 1#8 | .wrap => 2#8

/-- A LINK_FAULT reason. -/
def faultReasonCode : FaultReason → Byte
  | .length => 0#8 | .timeout => 1#8 | .check => 2#8 | .break_ => 3#8 | .overrun => 4#8

/-- The bit rate of a link rate (Table 6-1). -/
def rateBits : LinkRate → BitVec 32
  | .r115200 => 115200#32 | .r460800 => 460800#32 | .r921600 => 921600#32 | .r2000000 => 2000000#32

/-- The rate the straps choose (Table 6-1). -/
def strapRate (s : Straps) : LinkRate :=
  match s.rate1, s.rate0 with
  | false, false => .r115200
  | false, true => .r460800
  | true, false => .r921600
  | true, true => .r2000000

/-! Report kinds and classes (Table 7-3). -/

/-- The four classes (Table 8-1). REPORTS_LOST, special there, is only ever appended by R142. -/
inductive ReportClass where
  | keep | merge | replace | completion
  deriving DecidableEq, Repr

/-- The class of a report. -/
def reportClass : ReportBody → ReportClass
  | .powerUp .. => .keep | .hopBegin .. => .keep | .underrun .. => .merge | .lateStart .. => .merge
  | .channelState .. => .replace | .gateState .. => .replace | .epochEvent .. => .merge
  | .pairTimeout .. => .merge | .storeDone .. => .completion | .loadDone .. => .completion
  | .linkFault .. => .merge | .reportsLost .. => .keep

/-- The number k of the report kind 0x80 + k, which is its bit in the report mask. -/
def reportIndex : ReportBody → Nat
  | .powerUp .. => 0 | .hopBegin .. => 1 | .underrun .. => 2 | .lateStart .. => 3
  | .channelState .. => 4 | .gateState .. => 5 | .epochEvent .. => 6 | .pairTimeout .. => 7
  | .storeDone .. => 8 | .loadDone .. => 9 | .linkFault .. => 10 | .reportsLost .. => 11

/-- The kind code of a report (Table 7-3). -/
def reportKind (r : ReportBody) : Byte := BitVec.ofNat 8 (0x80 + reportIndex r)

/-- The eight maskable kinds (R137): bits 1 to 7 and 10. -/
def maskable (r : ReportBody) : Bool := Config.fullMask.getLsbD (reportIndex r)

/-- The key of a MERGE or REPLACE report (Table 8-1); 0 for the kinds without one. -/
def reportKey : ReportBody → Byte
  | .underrun c _ => chanCode c | .lateStart c _ _ => chanCode c | .channelState c _ => chanCode c
  | .gateState c _ _ => chanCode c | .epochEvent cause => epochCauseCode cause
  | .pairTimeout c _ => chanCode c | .linkFault reason => faultReasonCode reason
  | _ => 0#8

/-- Two reports of the same kind and the same key (R140, R141). -/
def sameKey (a b : ReportBody) : Bool := reportIndex a == reportIndex b && reportKey a == reportKey b

/-- Tag flag and tag, the tag sent as 0 when absent (R131). -/
def tagBytes (t : Option (BitVec 16)) : List Byte :=
  boolCode t.isSome :: be16 (t.getD 0#16)

/-- The payload of a report (Table 7-11). -/
def reportPayload (r : Report) : List Byte :=
  match r.body with
  | .powerUp cause areas => resetCauseCode cause :: areas.map areaStateCode
  | .hopBegin c slot tag count => [chanCode c, b8 slot.val] ++ tagBytes tag ++ be48 count
  | .underrun c policy => [b8 r.repeats, chanCode c, policyCode policy]
  | .lateStart c tag late => [b8 r.repeats, chanCode c] ++ tagBytes tag ++ be48 late
  | .channelState c st => [chanCode c, chanStateCode st]
  | .gateState c st hold => [chanCode c, gateStateCode st, holdCode hold]
  | .epochEvent cause => [b8 r.repeats, epochCauseCode cause]
  | .pairTimeout c tag => [b8 r.repeats, chanCode c] ++ tagBytes tag
  | .storeDone seq op area status reason offset =>
      [seq, storeKindCode op, b8 area.val, statusCode status, reason] ++ be16 offset
  | .loadDone seq c area status detail =>
      [seq, chanCode c, b8 area.val, statusCode status, detail]
  | .linkFault reason => [b8 r.repeats, faultReasonCode reason]
  | .reportsLost count => be16 (BitVec.ofNat 16 count)

/-- A report frame with the sequence it takes when its transmission begins (R130, R146). -/
def reportFrame (seq : Byte) (r : Report) : List Byte := mkFrame (reportKind r.body) seq (reportPayload r)

/-! Stored records (R136). -/

/-- A record of 64 bytes: its fields, bytes left erased up to 61, and the CRC of bytes 0 to 61. -/
def sealRecord (fields : List Byte) : List Byte :=
  let body := (fields ++ List.replicate (62 - fields.length) Config.erased).take 62
  body ++ be16 (crc16 body)

/-- The six bytes of a slot-use set: slot n is bit n mod 8 of byte n div 8 (Table 7-16). -/
def slotUseBytes (u : BitVec 48) : List Byte := (be48 u).reverse

/-- The commit record of chunk 62 (Table 7-16). -/
def commitRecordBytes (r : CommitRec) : List Byte :=
  sealRecord ([0x43#8, 0x4D#8] ++ be16 r.imageLength ++ be16 r.imageCrc ++ slotUseBytes r.slotUse ++
    [r.slotCount, r.hopCount, boolCode r.autostart, chanCode r.chan, boolCode r.startAfter])

/-- The revoke record of chunk 63 (Table 7-17). -/
def revokeRecordBytes (crc : BitVec 16) : List Byte := sealRecord ([0x52#8, 0x56#8] ++ be16 crc)

/-- A yes/no or channel code of an intact commit record; a stray code is a free value (log 19). -/
def storedFlag (b : Byte) : Bool := (yesNo b).getD (Config.strayCode b)

/-- How many slots a slot-use set holds. -/
def slotUseSize (u : BitVec 48) : Nat := ((List.range 48).filter fun i => u.getLsbD i).length

/-- The commit record in 64 bytes of chunk 62 beside an image, if it is intact (R136). -/
def intactCommit (chunk : Nat → Byte) (img : Nat → Byte) : Option CommitRec :=
  let use : BitVec 48 :=
    chunk 11 ++ (chunk 10 ++ (chunk 9 ++ (chunk 8 ++ (chunk 7 ++ chunk 6 : BitVec 16) : BitVec 24) :
      BitVec 32) : BitVec 40)
  if chunk 0 = 0x43#8 ∧ chunk 1 = 0x4D#8 ∧ u16At chunk 62 = crc16 ((List.range 62).map chunk) ∧
      chunk 12 = img 3 ∧ chunk 13 = img 4 ∧ slotUseSize use = (chunk 12).toNat then
    some { imageLength := u16At chunk 2, imageCrc := u16At chunk 4, slotUse := use,
           slotCount := chunk 12, hopCount := chunk 13, autostart := storedFlag (chunk 14),
           chan := if storedFlag (chunk 15) then .B else .A, startAfter := storedFlag (chunk 16) }
  else none

/-- Whether 64 bytes of chunk 63 are an intact revoke record of an image with this CRC (R136). -/
def intactRevoke (chunk : Nat → Byte) (crc : BitVec 16) : Bool :=
  decide (chunk 0 = 0x52#8 ∧ chunk 1 = 0x56#8 ∧ u16At chunk 62 = crc16 ((List.range 62).map chunk) ∧
    u16At chunk 2 = crc)

/-- The slot-use set of a list of slots (R136). -/
def slotUseOf (slots : List (Fin 48)) : BitVec 48 :=
  slots.foldl (fun u i => u ||| (1#48 <<< i.val)) 0#48

end Sys2Proof.Machine
end

