-- ==== Sys2Proof/Machine/Ops.lean ====
section
/-! DEFINITION. The named operations over the state: channels, slots and their pins, the store's
memory and directory. A GW482 takes no exceptions, so there is no exception entry here. -/

namespace Sys2Proof.Machine

/-! Channels. -/

/-- The other channel. -/
def chanOther : Chan → Chan
  | .A => .B | .B => .A

/-- A channel's state. -/
def State.chan (s : State) : Chan → Channel
  | .A => s.chA
  | .B => s.chB

/-- Replaces a channel's state. -/
def State.setChan (s : State) (c : Chan) (x : Channel) : State :=
  match c with
  | .A => { s with chA := x }
  | .B => { s with chB := x }

/-- Replaces a channel's gate. -/
def State.setGate (s : State) (c : Chan) (g : Gate) : State :=
  s.setChan c { s.chan c with gate := g }

/-! Slots and pins (R5). -/

/-- A slot's record. -/
def State.slot (s : State) (i : Fin 48) : Slot := s.slots.get i

/-- Replaces a slot's record. -/
def State.setSlot (s : State) (i : Fin 48) (x : Slot) : State := { s with slots := s.slots.set i x }

/-- The word, offset and label of a slot. A slot that an entry names is LOADED (R5); of an EMPTY one
the model reads a word and offset of 0 (assumption log 21). -/
def State.toneOf (s : State) (i : Fin 48) : Tone :=
  (s.slot i).tone.getD { word := 0#32, offset := 0#16, label := none }

/-- A slot is pinned while its pin count is above zero or it is reserved (R6). -/
def Slot.pinned (x : Slot) : Bool := decide (0 < x.pins) || x.reserved

/-- A slot's pin count rises by 1 (Table 1-3). -/
def State.pin (s : State) (i : Fin 48) : State :=
  s.setSlot i { s.slot i with pins := (s.slot i).pins + 1 }

/-- A slot's pin count falls by 1 (Table 1-3). -/
def State.unpin (s : State) (i : Fin 48) : State :=
  s.setSlot i { s.slot i with pins := (s.slot i).pins - 1 }

/-- Every entry of a list pins its slot. -/
def State.pinAll (s : State) (es : List HopEntry) : State := es.foldl (fun s e => s.pin e.slot) s

/-- Every entry of a list unpins its slot. -/
def State.unpinAll (s : State) (es : List HopEntry) : State := es.foldl (fun s e => s.unpin e.slot) s

/-- The reserved marks become exactly the slots of a slot-use set (R7). -/
def State.reserve (s : State) (use : BitVec 48) : State :=
  { s with slots := Vector.ofFn fun i => { s.slot i with reserved := use.getLsbD i } }

/-- Every reserved mark is cleared (R7). -/
def State.clearReserved (s : State) : State :=
  { s with slots := Vector.ofFn fun i => { s.slot i with reserved := false } }

/-- The pins a channel holds on a slot: its queue's entries naming it, plus its current hop (R175). -/
def Channel.pinsOn (ch : Channel) (i : Fin 48) : Nat :=
  ch.queue.countP (fun e => e.slot == i) + (ch.cur.map fun e => (e.slot == i).toNat).getD 0

/-- The slot phase law: (offset × 65,536 + word × count) mod 2^32 (R1). -/
def slotPhase (t : Tone) (count : BitVec 48) : BitVec 32 :=
  BitVec.ofNat 32 (t.offset.toNat * 65536 + t.word.toNat * count.toNat)

/-! The store's memory: a rising list of the bytes that are not erased (R150). -/

/-- The byte at an address; an address that is not listed reads as erased (R150). -/
def memRead : List Host.Cell → Nat → Byte
  | [], _ => Config.erased
  | (k, v) :: rest, a => if k = a then v else memRead rest a

/-- Writes one byte and keeps the canonical form. -/
def memWrite : List Host.Cell → Nat → Byte → List Host.Cell
  | [], a, b => if b = Config.erased then [] else [(a, b)]
  | (k, v) :: rest, a, b =>
    if a < k then (if b = Config.erased then (k, v) :: rest else (a, b) :: (k, v) :: rest)
    else if a = k then (if b = Config.erased then rest else (a, b) :: rest)
    else (k, v) :: memWrite rest a b

/-- Writes bytes in ascending order of address. -/
def memWrites (m : List Host.Cell) : Nat → List Byte → List Host.Cell
  | _, [] => m
  | a, b :: bs => memWrites (memWrite m a b) (a + 1) bs

/-- Erases `n` bytes from an address on. -/
def memErase (m : List Host.Cell) (a n : Nat) : List Host.Cell :=
  m.filter fun cell => cell.1 < a || a + n ≤ cell.1

/-- The canonical form: addresses strictly rising, and no listed byte reads as erased. -/
def Memory.wf : List Host.Cell → Bool
  | [] => true
  | [(_, v)] => v != Config.erased
  | (k, v) :: (k', v') :: rest => v != Config.erased && decide (k < k') && Memory.wf ((k', v') :: rest)

/-- The address of a byte of an area. -/
def areaAddr (area : Fin 8) (offset : Nat) : Nat := Config.areaBytes * area.val + offset

/-- The byte of an area at an offset as it is held (R163), and as an image is read (R135); past the end of the
area it is a free value (assumption log 19). A byte of a BLANK or OPEN area that loss of retention has changed
reads as changed (assumption log 45). -/
def Store.areaByte (st : Store) (area : Fin 8) (offset : Nat) : Byte :=
  if offset < Config.areaBytes then memRead st.mem (areaAddr area offset) else Config.beyondArea offset

/-- The bytes of an area from an offset on. -/
def Store.areaSlice (st : Store) (area : Fin 8) (offset n : Nat) : List Byte :=
  (List.range n).map fun i => st.areaByte area (offset + i)

/-- Programs bytes of a chunk in ascending order of offset (R150). -/
def Store.program (st : Store) (area : Fin 8) (chunk : Nat) (bs : List Byte) : Store :=
  { st with mem := memWrites st.mem (areaAddr area (Config.chunkBytes * chunk)) bs }

/-- Erases the `n` highest chunks of an area (R150). -/
def Store.eraseChunks (st : Store) (area : Fin 8) (n : Nat) : Store :=
  { st with mem := memErase st.mem (areaAddr area (Config.chunkBytes * (64 - n))) (Config.chunkBytes * n) }

/-- An area's directory record. -/
def Store.dir (st : Store) (area : Fin 8) : Dir := st.dirs.get area

/-- Replaces an area's directory record. -/
def Store.setDir (st : Store) (area : Fin 8) (d : Dir) : Store :=
  { st with dirs := st.dirs.set area d }

/-- A chunk joins a rising written-chunk set, in which it stands at most once (R152). -/
def chunkInsert : List Nat → Nat → List Nat
  | [], c => [c]
  | k :: rest, c => if c < k then c :: k :: rest else if c = k then k :: rest else k :: chunkInsert rest c

/-- What every area loses when it becomes DAMAGED: its parsed commit record and revoked mark (R168). -/
def Dir.damaged (d : Dir) : Dir := { d with st := .damaged, commit := none, revoked := false }

end Sys2Proof.Machine
end

