-- ==== Sys2Proof/Machine/Reports.lean ====
section
/-! DEFINITION. The report block (spec 08): making a report, and the departure of a report. -/

namespace Sys2Proof.Machine

/-- The lost count rises by 1, saturating at 65,535 (R142). -/
def ReportBlock.lose (b : ReportBlock) : ReportBlock := { b with lost := min 65535 (b.lost + 1) }

/-- A report joins the tail if the queue holds fewer than 16, else it is lost (R139 to R141). -/
def ReportBlock.join (b : ReportBlock) (r : ReportBody) : ReportBlock :=
  if b.queue.length < Config.reportCapacity then { b with queue := b.queue ++ [⟨r, 1⟩] } else b.lose

/-- Changes the first waiting report of a kind and key, of which the queue holds at most one for the
MERGE and REPLACE classes (R140, R141). -/
def updateFirst (r : ReportBody) (f : Report → Report) : List Report → List Report
  | [] => []
  | q :: rest => if sameKey q.body r then f q :: rest else q :: updateFirst r f rest

/-- The report waits already under its key. -/
def ReportBlock.waits (b : ReportBlock) (r : ReportBody) : Bool := b.queue.any fun q => sameKey q.body r

/-- An occurrence folds into a waiting MERGE report: the repeat count rises, up to 255 (R140). -/
def Report.repeated (q : Report) : Report := { q with repeats := min 255 (q.repeats + 1) }

/-- What becomes of a report made by a block (R137, R139 to R141). -/
def ReportBlock.accept (b : ReportBlock) (r : ReportBody) : ReportBlock :=
  if !b.isOpen then b
  else if maskable r && !b.mask.getLsbD (reportIndex r) then b
  else match reportClass r with
    | .completion => { b with completion := some ⟨r, 1⟩ }
    | .keep => b.join r
    | .merge => if b.waits r then { b with queue := updateFirst r Report.repeated b.queue } else b.join r
    | .replace =>
      if b.waits r then { b with queue := updateFirst r (fun q => { q with body := r }) b.queue }
      else b.join r

/-- The note of the present period after the report `r`, `before` being the block before it: how many
HOP_BEGINs have joined (assumption log 10). -/
def ReportBlock.note (b before : ReportBlock) (r : ReportBody) : ReportBlock :=
  match r with
  | .hopBegin .. => { b with begun := b.begun + (b.queue.length - before.queue.length) }
  | _ => b

/-- The report block acts on a report made by a block (R137). -/
def ReportBlock.make (b : ReportBlock) (r : ReportBody) : ReportBlock := (b.accept r).note b r

/-- A block makes a report. -/
def State.report (s : State) (r : ReportBody) : State := { s with reports := s.reports.make r }

/-- The report frame of a departing report takes the next report sequence (R146). -/
def ReportBlock.frame (b : ReportBlock) (r : Report) : List Byte := reportFrame b.nextSeq r

/-- Whether a report is a HOP_BEGIN. -/
def Report.isHopBegin (r : Report) : Bool :=
  match r.body with
  | .hopBegin .. => true
  | _ => false

/-- The head leaves the ordinary queue; with losses counted, REPORTS_LOST takes the freed place (R142,
R146). -/
def ReportBlock.departHead (b : ReportBlock) : ReportBlock :=
  let rest := b.queue.tail
  { b with
    queue := if 0 < b.lost then rest ++ [⟨.reportsLost b.lost, 1⟩] else rest,
    lost := 0, nextSeq := b.nextSeq + 1#8,
    begun := min b.begun (rest.countP Report.isHopBegin) }

/-- The completion report leaves its place (R144, R146). -/
def ReportBlock.departCompletion (b : ReportBlock) : ReportBlock :=
  { b with completion := none, nextSeq := b.nextSeq + 1#8 }

/-! The reports of a period in which an epoch event is taken after them (R14, R49). -/

/-- A HOP_BEGIN with another count. -/
def Report.recounted (count : BitVec 48) (r : Report) : Report :=
  match r.body with
  | .hopBegin c slot tag _ => { r with body := .hopBegin c slot tag count }
  | _ => r

/-- Every HOP_BEGIN but the first `skip` takes another count. -/
def recountFrom (count : BitVec 48) : Nat → List Report → List Report
  | _, [] => []
  | 0, q :: rest => q.recounted count :: recountFrom count 0 rest
  | skip + 1, q :: rest =>
    if q.isHopBegin then q :: recountFrom count skip rest
    else q :: recountFrom count (skip + 1) rest

/-- The HOP_BEGINs of the present period that wait take another count (R49; assumption log 10). -/
def ReportBlock.recount (b : ReportBlock) (count : BitVec 48) : ReportBlock :=
  { b with queue := recountFrom count (b.queue.countP Report.isHopBegin - b.begun) b.queue }

/-- A new sample period begins: no report of it has been made yet. -/
def ReportBlock.nextPeriod (b : ReportBlock) : ReportBlock := { b with begun := 0 }

end Sys2Proof.Machine
end

