-- ==== Sys2Proof/Machine/Gate.lean ====
section
/-! DEFINITION. The output gates and the sample path (spec 05). -/

namespace Sys2Proof.Machine

/-- No reason is present (R88). -/
def HoldSet.isEmpty (h : HoldSet) : Bool := !(h.host || h.line || h.blank || h.ending || h.noHop)

/-- What the gate does when an event leaves the hold set `h`: R92, R93, and R95 for a ramp length of
0. The period gain follows the lowest gain of the period (R96). -/
def Gate.move (ramp : Nat) (g : Gate) (h : HoldSet) : Gate :=
  let g' : Gate :=
    if g.hold.isEmpty && !h.isEmpty then
      if ramp = 0 then { g with st := .closed, gain := 0 }
      else match g.st with
        | .opened => { g with st := .closing }
        | .opening => if g.gain = 0 then { g with st := .closed } else { g with st := .closing }
        | _ => g
    else if !g.hold.isEmpty && h.isEmpty then
      if ramp = 0 then { g with st := .opened, gain := Config.fullGain }
      else match g.st with
        | .closed => { g with st := .opening }
        | .closing =>
          if g.gain = Config.fullGain then { g with st := .opened } else { g with st := .opening }
        | _ => g
    else g
  { g' with hold := h, periodGain := min g.periodGain g'.gain }

/-- The step toward a target at a distance: the step s while the distance is above s + r, else the
whole distance (R90). -/
def rampStep (ramp distance : Nat) : Nat :=
  let step := Config.fullGain / ramp
  let rest := Config.fullGain - ramp * step
  if step + rest < distance then step else distance

/-- The step of a period, fixed by the gate state at the end of the one before (R90, R91); the period
gain starts at the gain the step gives (R96). A step that brings the gain onto its target leaves the gate
CLOSING with gain 0 or OPENING with gain 1,024 until its arrival is taken, and a reply in between shows that
(assumption log 44). -/
def Gate.step (ramp : Nat) (g : Gate) : Gate :=
  let gain := match g.st with
    | .closing => g.gain - rampStep ramp g.gain
    | .opening => g.gain + rampStep ramp (Config.fullGain - g.gain)
    | _ => g.gain
  { g with gain := gain, periodGain := gain }

/-- A moving gate whose gain has reached its target (R94). -/
def Gate.arrived (g : Gate) : Bool :=
  match g.st with
  | .closing => g.gain == 0
  | .opening => g.gain == Config.fullGain
  | _ => false

/-- Sets a gate, with its GATE_STATE report when the gate state changes (R103). -/
def State.moveGate (s : State) (c : Chan) (g : Gate) : State :=
  if g.st = (s.chan c).gate.st then s.setGate c g
  else (s.setGate c g).report (.gateState c g.st g.hold)

/-- An event leaves the hold set `h` on a channel's gate (R88). -/
def State.applyHold (s : State) (c : Chan) (h : HoldSet) : State :=
  s.moveGate c ((s.chan c).gate.move (s.chan c).cfg.ramp h)

/-- A channel's gate is CLOSED. -/
def State.gateClosed (s : State) (c : Chan) : Bool := (s.chan c).gate.st == .closed

/-! The sample path (R105 to R109). -/

/-- One unit of the fixed-point sine, 2^96. -/
def sineUnit : Nat := 2 ^ 96

/-- π × 2^96, rounded down. -/
def sinePi : Nat := 248902613312231085230521944622

/-- The alternating terms of the sine's power series from term x^n / n! on, `t` being that term and
`x2` the square of the angle: the terms added and the terms taken away. -/
def sineTerms (x2 : Nat) : Nat → Nat → Nat → Nat × Nat
  | 0, _, _ => (0, 0)
  | fuel + 1, n, t =>
    let rest := sineTerms x2 fuel (n + 2) (t * x2 / (sineUnit * (n + 1) * (n + 2)))
    (t + rest.2, rest.1)

/-- The sine table on the first quarter turn, k from 0 to 4,096: 32,767 × sin(2πk / 16,384) rounded to
the nearest integer (R106). The series is summed to within 2^-76, far closer than any value of the
table comes to a half (assumption log 33). -/
def sineQuarter (k : Nat) : Nat :=
  let x := sinePi * k / 8192
  let sum := sineTerms (x * x / sineUnit) 16 1 x
  (2 * 32767 * (sum.1 - sum.2) + sineUnit) / (2 * sineUnit)

/-- The sine table T(k), k from 0 to 16,383 (R106). -/
def sineTable (k : Nat) : Int :=
  let r := k % 4096
  match k / 4096 with
  | 0 => sineQuarter r
  | 1 => sineQuarter (4096 - r)
  | 2 => -(sineQuarter r : Int)
  | _ => -(sineQuarter (4096 - r) : Int)

/-- The phase index: the top 14 bits of the accumulator (R105). -/
def phaseIndex (acc : BitVec 32) : Nat := acc.toNat / 2 ^ 18

/-- The two scalings, each truncated toward zero (R107). -/
def scaleSample (t : Int) (amplitude gain : Nat) : Int :=
  ((t * amplitude).tdiv 32767 * gain).tdiv 1024

/-- The sample of the present period (R107, R108). -/
def Channel.sample (ch : Channel) : BitVec 16 :=
  match ch.cur with
  | none => 0#16
  | some hop =>
    BitVec.ofInt 16
      (scaleSample (sineTable (phaseIndex ch.acc)) hop.amplitude.toNat ch.gate.periodGain)

/-- While the sample period runs, the ports carry the samples its events so far give, the last of which is
the sample of the period; once SCLK has stopped they keep the last samples driven (R109; assumption log
28). -/
def State.drivePorts (s : State) : State :=
  if s.ports.periodOpen then
    { s with ports := { s.ports with douta := s.chA.sample, doutb := s.chB.sample } }
  else s

end Sys2Proof.Machine
end

