-- ==== Sys2Proof/Machine/Epoch.lean ====
section
/-! DEFINITION. The epoch events and the count of a sample period (spec 01). -/

namespace Sys2Proof.Machine

/-- The arm state becomes this one (R19). -/
def State.setArm (s : State) (arm : ArmState) : State := { s with epoch := { s.epoch with arm := arm } }

/-- An epoch event in the period of a COHERENT switch: the switch uses the count 0 (R48; assumption log
10). -/
def State.realign (s : State) (c : Chan) : State :=
  match (s.chan c).coherentNow with
  | some t => s.setChan c { s.chan c with acc := slotPhase t 0#48 }
  | none => s

/-- An epoch event sets the count to 0 and makes its report (R16). The COHERENT switches and the waiting
HOP_BEGINs of its period use the count 0 (R14, R48, R49; assumption log 10), and a wrap of the period, taken
or not, makes no report (R15; assumption log 11). -/
def State.epochEvent (s : State) (cause : EpochCause) : State :=
  let s1 : State :=
    { s with epoch := { s.epoch with count := 0#48, wrapDue := false, wrapHeld := false },
             reports := s.reports.recount 0#48 }
  ((s1.realign .A).realign .B).report (.epochEvent cause)

/-- A rising edge on SYNC in an arm state (R18), that of the moment the edge is taken: an arming request of the
edge's period, taken first, makes the edge an epoch event, and a TIME head that has started in that period stays
started (assumption log 10). -/
def State.syncRise (s : State) : State :=
  let s1 := { s with epoch := { s.epoch with syncDue := false } }
  match s.epoch.arm with
  | .disarmed => s1
  | .once => (s1.setArm .disarmed).epochEvent .sync
  | .every => s1.epochEvent .sync

/-- The SYNC edge of the present period, not taken yet, finds the block armed: it is an epoch event of this
period (R18). -/
def Epoch.eventDue (e : Epoch) : Bool := e.syncDue && e.arm != .disarmed

/-- The count that every block reads in the present period (R14): an epoch event that is due makes it 0. -/
def Epoch.periodCount (e : Epoch) : BitVec 48 := if e.eventDue then 0#48 else e.count

/-- Before a block of the SCLK domain reads the count, an epoch event of the period that is due is taken
(R14; assumption log 10). -/
def State.settleEpoch (s : State) : State := if s.epoch.eventDue then s.syncRise else s

/-- A wrap is taken; the count stands at 0 since the advance. Its report waits for the end of the period, since
an epoch event of the period would leave none to make (R15; assumption log 11). -/
def State.takeWrap (s : State) : State :=
  { s with epoch := { s.epoch with wrapDue := false, wrapHeld := true } }

/-- The report of a wrap whose period had no epoch event (R15). -/
def State.reportWrap (s : State) : State :=
  State.report { s with epoch := { s.epoch with wrapHeld := false } } (.epochEvent .wrap)

end Sys2Proof.Machine
end

