-- ==== Sys2Proof/Machine/Engine.lean ====
section
/-! DEFINITION. The hop engine and the pair unit (spec 03, 04): evaluation of the head, hop start,
readiness and pair start, underrun, ENDING, and the events that reach a channel.

The operations stand in layers, each calling only those before it: a switch, readiness and the pair
start, the entry into SWITCHING, an evaluation, the completion of ENDING, the entry into ENDING, the
underrun procedure, and the events. -/

namespace Sys2Proof.Machine

/-- The entry offered as the head: the current hop while it is the head offered, else the entry at
position 0 (R25, R38). -/
def Channel.offered (ch : Channel) : Option HopEntry := if ch.selfHead then ch.cur else ch.queue.head?

/-- A change of channel state, with its CHANNEL_STATE report (R45). -/
def State.enter (s : State) (c : Chan) (st : ChanState) : State :=
  if (s.chan c).st = st then s
  else (s.setChan c { s.chan c with st := st }).report (.channelState c st)

/-- Readiness becomes not ready and the pair timer stops, without a report (R80). -/
def State.withdraw (s : State) (c : Chan) : State :=
  s.setChan c { s.chan c with ready := false, timer := none }

/-- The queue after the head is taken: the exchange of cycle mode puts the retiring hop at the tail,
and the retake of the current hop leaves the queue as it stands (R25, R38). -/
def Channel.queueAfterTake (ch : Channel) : List HopEntry :=
  if ch.selfHead then ch.queue
  else if ch.cfg.cycle then ch.queue.tail ++ ch.cur.toList
  else ch.queue.tail

/-- The slot a switch unpins: the retired hop's, outside cycle mode (R46). -/
def Channel.retiredSlot (ch : Channel) : Option (Fin 48) :=
  if ch.cfg.cycle then none else ch.cur.map HopEntry.slot

/-- Lowers the pin count of a slot, if there is one. -/
def State.unpinOpt (s : State) : Option (Fin 48) → State
  | none => s
  | some i => s.unpin i

/-- The accumulator in the switch period (R48). SAMPLE_PERIOD has already moved it by the retired hop's
word, so CONTINUOUS keeps it. -/
def switchAcc (acc : BitVec 32) (t : Tone) (count : BitVec 48) : Mode → BitVec 32
  | .continuous => acc
  | .restart => BitVec.ofNat 32 (t.offset.toNat * 65536)
  | .coherent => slotPhase t count

/-- A channel after a switch to `hop`, less its gate and its state (R46, steps 1 to 5). -/
def Channel.switched (ch : Channel) (hop : HopEntry) (t : Tone) (count : BitVec 48) : Channel :=
  { ch with queue := ch.queueAfterTake, cur := some hop, acc := switchAcc ch.acc t count hop.mode,
            dwell := hop.dwell.toNat, ready := false, timer := none, selfHead := false,
            coherentNow := match hop.mode with
              | .coherent => some t
              | .restart => none
              | .continuous => ch.coherentNow }

/-- The head offered, `hop`, becomes the current hop (R46, R49). Its reports are made in the order of R46
(assumption log 22). -/
def State.switchTo (s : State) (c : Chan) (hop : HopEntry) : State :=
  let s1 := (s.unpinOpt (s.chan c).retiredSlot).setChan c
    ((s.chan c).switched hop (s.toneOf hop.slot) s.epoch.count)
  let s2 := s1.applyHold c { (s1.chan c).gate.hold with noHop := false, blank := false }
  let s3 := s2.enter c .dwell
  if hop.report then s3.report (.hopBegin c hop.slot hop.tag s.epoch.count) else s3

/-- A hop start, or switch (R46): it reads the count of the period (R14; assumption log 10). -/
def State.hopStart (s : State) (c : Chan) : State :=
  match (s.chan c).offered with
  | none => s
  | some hop => s.settleEpoch.switchTo c hop

/-- Both ready heads start in the one sample period, channel A's first (R78; assumption log 22). -/
def State.pairStart (s : State) : State := (s.hopStart .A).hopStart .B

/-- A channel becomes pair-ready: its timer starts if its pair timeout is above 0, and a ready partner
brings the pair start (R75, R78, R81). A channel that is ready stays as it is. -/
def State.becomeReady (s : State) (c : Chan) : State :=
  if (s.chan c).ready then s
  else
    let t := (s.chan c).cfg.pairTimeout
    let s1 := s.setChan c { s.chan c with ready := true, timer := if t = 0 then none else some t }
    if (s1.chan (chanOther c)).ready then s1.pairStart else s1

/-- The gate is CLOSED and the channel is in SWITCHING: a PAIRED head becomes pair-ready, any other is
switched in (R52, R59, R76, R97). -/
def State.switchClosed (s : State) (c : Chan) : State :=
  match (s.chan c).offered with
  | none => s
  | some hop => if hop.trigger = .paired then s.becomeReady c else s.hopStart c

/-- The entry into SWITCHING: BLANK joins the hold set, and a gate that is CLOSED goes on at once
(R52, R76, R95). -/
def State.enterSwitching (s : State) (c : Chan) : State :=
  let s1 := s.enter c .switching
  let s2 := s1.applyHold c { (s1.chan c).gate.hold with blank := true }
  if s2.gateClosed c then s2.switchClosed c else s2

/-- The head offered is met: the switch, by way of SWITCHING where it is blank and the gate is not
CLOSED (R51, R52), in a flush in SWITCHING too (R70; assumption log 49). -/
def State.headMet (s : State) (c : Chan) (hop : HopEntry) : State :=
  if hop.blank && !s.gateClosed c then s.enterSwitching c else s.hopStart c

/-- The head offered is waited on: WAITING without a current hop, OVERSTAY with one (R51). -/
def State.waitOnHead (s : State) (c : Chan) : State :=
  if (s.chan c).cur.isSome then s.enter c .overstay else s

/-- The queue offers its head for an evaluation: the entry at position 0, or in cycle mode with an
empty queue the current hop (R38). -/
def State.offerHead (s : State) (c : Chan) : State :=
  s.setChan c { s.chan c with
    selfHead := (s.chan c).queue.isEmpty && (s.chan c).cfg.cycle && (s.chan c).cur.isSome }

/-- What follows from the trigger of the head offered (Table 3-4); a TIME head is compared with the count of
the period (R14, R57), and its LATE_START comes before the other reports of the event (assumption log 22).
`keepBlank` says that a blank PAIRED head found with the gate CLOSED keeps the BLANK reason and goes to SWITCHING
(R75, R83). -/
def State.evaluateHop (s : State) (c : Chan) (hop : HopEntry) (keepBlank : Bool) : State :=
  match hop.trigger with
  | .after => s.headMet c hop
  | .line => s.waitOnHead c
  | .time t =>
    let u := s.settleEpoch
    if u.epoch.count < t then u.waitOnHead c
    else if u.epoch.count = t then u.headMet c hop
    else (u.report (.lateStart c hop.tag (u.epoch.count - t))).headMet c hop
  | .paired =>
    if hop.blank && (!s.gateClosed c || keepBlank) then s.enterSwitching c
    else (s.waitOnHead c).becomeReady c

/-- An evaluation of the head (R51). -/
def State.evaluate (s : State) (c : Chan) (keepBlank : Bool) : State :=
  let s1 := s.offerHead c
  match (s1.chan c).offered with
  | none => s1
  | some hop => s1.evaluateHop c hop keepBlank

/-- A channel whose current hop is released (R64): in cycle mode the hop joins the tail (R39). -/
def Channel.released (ch : Channel) : Channel :=
  { ch with cur := none, dwell := 0,
            queue := if ch.cfg.cycle then ch.queue ++ ch.cur.toList else ch.queue }

/-- ENDING completes (R64). -/
def State.endingComplete (s : State) (c : Chan) (dest : EndDest) : State :=
  let s1 := (s.unpinOpt (s.chan c).retiredSlot).setChan c (s.chan c).released
  let s2 := s1.applyHold c { (s1.chan c).gate.hold with noHop := true, ending := false }
  match dest with
  | .idle => s2.enter c .idle
  | .waiting =>
    let s3 := s2.enter c .waiting
    if (s3.chan c).queue.isEmpty then s3 else s3.evaluate c false

/-- The entry into ENDING: ENDING joins the hold set in place of BLANK, and a gate that is CLOSED
completes it at once (R63, R64). A gate at gain 0 whose arrival is due and not taken is not CLOSED yet: the
STOP of R68 that comes ahead of it is answered with ENDING, and ENDING completes when the arrival is taken
(assumption log 39). -/
def State.enterEnding (s : State) (c : Chan) (dest : EndDest) : State :=
  let s1 := s.setChan c { s.chan c with stopAtEnd := false, selfHead := false }
  let s2 := s1.enter c (.ending dest)
  let s3 := s2.applyHold c { (s2.chan c).gate.hold with ending := true, blank := false }
  if s3.gateClosed c then s3.endingComplete c dest else s3

/-- The underrun procedure (R61, Table 3-5). UNDERRUN is made before the CHANNEL_STATE that follows (assumption
log 22). -/
def State.underrun (s : State) (c : Chan) : State :=
  let s1 := (s.setChan c { s.chan c with selfHead := false }).report
    (.underrun c (s.chan c).cfg.policy)
  match (s.chan c).cfg.policy with
  | .hold => s1.enter c .overstay
  | .squelch => s1.enterEnding c .waiting
  | .stop => s1.enterEnding c .idle

/-- An event that took BLANK from a channel that has left SWITCHING leaves the hold set without it
(R69, R82, R83); a switch or ENDING has removed it already. The gate acts on the hold set that the event
leaves (R83), so its GATE_STATE is made last (assumption log 22). -/
def State.dropBlank (s : State) (c : Chan) : State :=
  if (s.chan c).gate.hold.blank && (s.chan c).st != .switching then
    s.applyHold c { (s.chan c).gate.hold with blank := false }
  else s

/-- The channel is left with a current hop by a removal of its head: the underrun procedure on an empty
queue outside cycle mode, else an evaluation (R35, R69, R82). -/
def State.afterRemoval (s : State) (c : Chan) (keepBlank : Bool) : State :=
  if (s.chan c).queue.isEmpty && !(s.chan c).cfg.cycle then s.underrun c
  else s.evaluate c keepBlank

/-- The gate's report of CLOSED to its hop engine (R97). -/
def State.gateReportsClosed (s : State) (c : Chan) : State :=
  match (s.chan c).st with
  | .switching => s.switchClosed c
  | .ending dest => s.endingComplete c dest
  | _ => s

/-! Events of the channel. Each is the effect of its event on a state in which the event is due. -/

/-- The dwell has expired: the channel is in DWELL with its counter at 0 (R53). -/
def Channel.expiryDue (ch : Channel) : Bool := ch.st == .dwell && ch.cur.isSome && ch.dwell == 0

/-- The dwell expiry (R54). -/
def State.expire (s : State) (c : Chan) : State :=
  if (s.chan c).stopAtEnd then s.enterEnding c .idle
  else s.afterRemoval c false

/-- The pair timer has reached 0 with the channel still ready (R81). -/
def Channel.pairExpiryDue (ch : Channel) : Bool := ch.ready && ch.timer == some 0

/-- The queue removes the head waited on; a current hop offered as the head is no queue entry and stays
(R41, R82). -/
def State.skipHead (s : State) (c : Chan) : State :=
  if (s.chan c).selfHead then s
  else
    (s.unpinOpt ((s.chan c).queue.head?.map HopEntry.slot)).setChan c
      { s.chan c with queue := (s.chan c).queue.tail }

/-- The expiry of the pair timer (R82, R83). -/
def State.pairExpire (s : State) (c : Chan) : State :=
  let wasSwitching := (s.chan c).st == .switching
  let tag := (s.chan c).offered.bind HopEntry.tag
  let s1 := ((s.withdraw c).skipHead c).report (.pairTimeout c tag)
  let s2 := if wasSwitching then s1.enter c .overstay else s1
  let s3 :=
    if (s2.chan c).cur.isSome then s2.afterRemoval c wasSwitching
    else if (s2.chan c).queue.isEmpty then s2
    else s2.evaluate c false
  s3.dropBlank c

/-- The arrival of a moving gate at its target (R94). -/
def State.gateArrive (s : State) (c : Chan) : State :=
  match (s.chan c).gate.st with
  | .closing => (s.moveGate c { (s.chan c).gate with st := .closed }).gateReportsClosed c
  | .opening => s.moveGate c { (s.chan c).gate with st := .opened }
  | _ => s

/-- The head a channel waits on, in WAITING or OVERSTAY (R55). -/
def Channel.waitedOn (ch : Channel) : Option HopEntry :=
  match ch.st with
  | .waiting => ch.offered
  | .overstay => ch.offered
  | _ => none

/-- A LINE head meets the edge (R55); an edge at any other time has no effect. -/
def State.meetEdge (s : State) (c : Chan) : State :=
  match (s.chan c).waitedOn with
  | some hop => if hop.trigger = .line then s.headMet c hop else s
  | none => s

/-- The trigger edge is taken (R55). -/
def State.takeEdge (s : State) (c : Chan) : State :=
  (s.setChan c { s.chan c with edgeDue := false }).meetEdge c

/-- A waited-on TIME head whose value the count of the period is (R14, R57). With SCLK stopped an EPOCH NOW makes a
waiting head of value 0 due in the stopped period itself (R57, where R50 names no EPOCH; assumption log 48). -/
def State.timeDue (s : State) (c : Chan) : Bool :=
  match (s.chan c).waitedOn with
  | some hop => hop.trigger == .time s.epoch.periodCount
  | none => false

/-- The TIME head is met on time (R57), an epoch event that is due being taken first (R14). -/
def State.timeArrive (s : State) (c : Chan) : State :=
  match (s.chan c).waitedOn with
  | some hop => s.settleEpoch.headMet c hop
  | none => s

/-! Changes of the HOST and LINE reasons (R77, R100, R101). -/

/-- A channel in OVERSTAY is ready on a blank PAIRED head (R77). -/
def Channel.readyBlankOverstay (ch : Channel) : Bool :=
  ch.st == .overstay && ch.ready && (ch.offered.map HopEntry.blank).getD false

/-- An event changes the HOST or LINE reason to leave `h`. Where that would empty the hold set of a
channel ready on a blank PAIRED head in OVERSTAY, BLANK joins in the same event and the channel enters
SWITCHING (R77). A gate that enters CLOSED reports it (R97). -/
def State.changeHold (s : State) (c : Chan) (h : HoldSet) : State :=
  if (s.chan c).readyBlankOverstay && !(s.chan c).gate.hold.isEmpty && h.isEmpty then
    (s.applyHold c { h with blank := true }).enter c .switching
  else
    let s1 := s.applyHold c h
    if s1.gateClosed c && !s.gateClosed c then s1.gateReportsClosed c else s1

/-! START and STOP (R66, R67). -/

/-- An IDLE channel is started: stop-at-end is cleared, the channel is WAITING and the head of a queue
that is not empty is evaluated (R66). -/
def State.startChannel (s : State) (c : Chan) : State :=
  let s1 := (s.setChan c { s.chan c with stopAtEnd := false }).enter c .waiting
  if (s1.chan c).queue.isEmpty then s1 else s1.evaluate c false

/-- STOP in every state but LOADING (Table 3-6); `now` tells NOW from AT_END. -/
def State.stopChannel (s : State) (c : Chan) (now : Bool) : State :=
  match (s.chan c).st with
  | .waiting => (s.withdraw c).enter c .idle
  | .dwell =>
    if now then s.enterEnding c .idle else s.setChan c { s.chan c with stopAtEnd := true }
  | .overstay => (s.withdraw c).enterEnding c .idle
  | .switching => (s.withdraw c).enterEnding c .idle
  | .ending .waiting => s.enter c (.ending .idle)
  | _ => s

/-! The CHANNELS reset of a channel (R43, R73, R86, R104). -/

/-- The hold set after a CHANNELS reset (R104). -/
def State.holdAfterReset (s : State) (c : Chan) : HoldSet :=
  { host := (s.chan c).gate.hold.host, line := (s.chan c).cfg.follow && s.gateLine, blank := false,
    ending := false, noHop := true }

/-- A CHANNELS reset of one channel, its pins apart. CHANNEL_STATE comes before GATE_STATE (assumption log
22). -/
def State.resetChannel (s : State) (c : Chan) : State :=
  let ch := s.chan c
  let s1 := s.setChan c
    { ch with queue := [], cur := none, dwell := 0, stopAtEnd := false, acc := 0#32, selfHead := false,
              ready := false, timer := none, coherentNow := none }
  let s2 := s1.enter c .idle
  s2.moveGate c { st := .closed, gain := 0, hold := s.holdAfterReset c, periodGain := 0 }

end Sys2Proof.Machine
end

