-- ==== Sys2Proof/Machine/Slots.lean ====
section
/-! DEFINITION. The requests of the slot table and the epoch block (spec 01). An owner's operation gives the
state after the request's effect and the reply payload (R117). -/

namespace Sys2Proof.Machine

/-- A refusal that carries the status alone (R131); it changes nothing. -/
def refuse (st : Status) (s : State) : State × List Byte := (s, [statusCode st])

/-- An answer with status OK and this body. -/
def answerOk (body : List Byte) (s : State) : State × List Byte := (s, statusCode .ok :: body)

/-- The refusal of a pinned slot with its pin count and reserved mark (R9). -/
def refusePinned (i : Fin 48) (s : State) : State × List Byte :=
  (s, [statusCode .slotPinned, b8 (s.slot i).pins, boolCode (s.slot i).reserved])

/-- SLOT_SET: the checks of Table 1-4 and the write (R8). The label's length has been checked (R132). -/
def opSlotSet (index : Byte) (word : BitVec 32) (offset : BitVec 16) (label : List Byte) (s : State) :
    State × List Byte :=
  match slotOf index with
  | none => refuse .badValue s
  | some i =>
    if word = 0#32 then refuse .badValue s
    else if !label.all printable then refuse .badValue s
    else if (s.slot i).pinned then refusePinned i s
    else answerOk [] (s.setSlot i
      { s.slot i with tone := some { word := word, offset := offset, label := labelOf label } })

/-- SLOT_CLEAR (R10). -/
def opSlotClear (index : Byte) (s : State) : State × List Byte :=
  match slotOf index with
  | none => refuse .badValue s
  | some i =>
    if (s.slot i).pinned then refusePinned i s
    else answerOk [] (s.setSlot i { s.slot i with tone := none })

/-- The body of SLOT_GET (R11, Table 7-9). -/
def slotBody (i : Fin 48) (s : State) : List Byte :=
  let x := s.slot i
  [b8 i.val, boolCode x.tone.isSome, b8 x.pins, boolCode x.reserved] ++
    match x.tone with
    | none => []
    | some t => be32 t.word ++ be16 t.offset ++ be32 (slotPhase t s.epoch.count) ++
        b8 (t.label.getD []).length :: t.label.getD []

/-- SLOT_GET (R11). -/
def opSlotGet (index : Byte) (s : State) : State × List Byte :=
  match slotOf index with
  | none => refuse .badValue s
  | some i => answerOk (slotBody i s) s

/-! The epoch block. -/

/-- EPOCH with mode NOW (R19). -/
def opEpochNow (s : State) : State × List Byte := answerOk [] (s.epochEvent .request)

/-- EPOCH with mode ARM_ONCE, ARM_EVERY or DISARM (R19). -/
def opEpochArm (arm : ArmState) (s : State) : State × List Byte := answerOk [] (s.setArm arm)

/-- EPOCH by the mode byte of its frame (R19, R133). -/
def opEpochMode (mode : Byte) (s : State) : State × List Byte :=
  if mode = 0#8 then opEpochNow s
  else if mode = 1#8 then opEpochArm .once s
  else if mode = 2#8 then opEpochArm .every s
  else if mode = 3#8 then opEpochArm .disarmed s
  else refuse .badValue s

/-- EPOCH_GET (R20). -/
def opEpochGet (s : State) : State × List Byte :=
  answerOk (be48 s.epoch.count ++ [armCode s.epoch.arm]) s

end Sys2Proof.Machine
end

