-- ==== Sys2Proof/Machine/Loader.lean ====
section
/-! DEFINITION. The loader (spec 10): acceptance, completion, apply and cancellation of a load, and
autostart. -/

namespace Sys2Proof.Machine

/-- The store engine enters a state. -/
def State.setEngine (s : State) (e : EngineState) : State :=
  { s with store := { s.store with engine := e } }

/-- Replaces an area's directory record. -/
def State.setDir (s : State) (area : Fin 8) (d : Dir) : State :=
  { s with store := s.store.setDir area d }

/-- A load is accepted: the context, the reservations, LOADING with its report, and the engine's read
(R171). -/
def State.acceptLoad (s : State) (k : LoadCtx) : State :=
  let use := ((s.store.dir k.area).commit.map CommitRec.slotUse).getD 0#48
  let s1 := State.reserve { s with loader := { s.loader with ctx := some k, staging := [] } } use
  (s1.enter k.chan .loading).setEngine .reading

/-- The load context becomes absent, the staging buffer is emptied and every reserved mark is cleared
(R169, R7). -/
def State.endLoad (s : State) : State :=
  State.clearReserved { s with loader := { s.loader with ctx := none, staging := [] } }

/-- The LOAD_DONE report of a load (R177, R178, R179). -/
def loadDone (k : LoadCtx) (status : Status) (detail : Byte) : ReportBody :=
  .loadDone k.seq k.chan k.area status detail

/-- The cancellation of the load in flight, if there is one; the engine stays READING until the report
leaves (R179). -/
def State.cancelLoad (s : State) : State :=
  match s.loader.ctx with
  | none => s
  | some k => (s.endLoad.enter k.chan .idle).report (loadDone k .cancelled 0xFF#8)

/-- A completion check has failed (R177). -/
def State.failLoad (s : State) (k : LoadCtx) (status : Status) (detail : Byte) : State :=
  (s.endLoad.enter k.chan .idle).report (loadDone k status detail)

/-- A program slot conflicts: it is LOADED with another word or offset and the other channel holds pins
on it (R175). -/
def State.conflicts (s : State) (c : Chan) (p : Fin 48 × Tone) : Bool :=
  match (s.slot p.1).tone with
  | none => false
  | some t =>
    decide (0 < (s.chan (chanOther c)).pinsOn p.1) &&
      (t.word != p.2.word || t.offset != p.2.offset)

/-- A blank hop whose dwell does not exceed the ramp length (R30, R176). -/
def dwellShort (ramp : Nat) (e : HopEntry) : Bool := e.blank && decide (e.dwell.toNat ≤ ramp)

/-- The apply's write of one program slot: a pinned one takes the label alone (R12, R178). -/
def State.writeProgramSlot (s : State) (p : Fin 48 × Tone) : State :=
  let x := s.slot p.1
  match x.tone with
  | some t =>
    if x.pins = 0 then s.setSlot p.1 { x with tone := some p.2 }
    else s.setSlot p.1 { x with tone := some { t with label := p.2.label } }
  | none => s.setSlot p.1 { x with tone := some p.2 }

/-- The loading channel's queue becomes the program's hops, and the slots the program's (R42, R178). -/
def State.installProgram (s : State) (c : Chan) (p : Program) : State :=
  let s1 := (s.unpinAll (s.chan c).queue).setChan c { s.chan c with queue := [] }
  let s2 := p.slots.foldl State.writeProgramSlot s1
  (s2.setChan c { s2.chan c with queue := p.hops }).pinAll p.hops

/-- The apply (R178). -/
def State.applyLoad (s : State) (k : LoadCtx) (p : Program) : State :=
  let s1 := (s.installProgram k.chan p).endLoad
  let s2 := if k.start then s1.startChannel k.chan else s1.enter k.chan .idle
  s2.report (loadDone k .ok 0xFF#8)

/-- The image as the loader reads it from the staging buffer (R174); past its bytes it is a free value
(assumption log 19). -/
def stagedByte (staging : List Byte) (i : Nat) : Byte := staging.getD i (Config.beyondStaging i)

/-- The staged image is bad: the area becomes DAMAGED and the load ends CORRUPT (R174). -/
def State.corruptLoad (s : State) (k : LoadCtx) : State :=
  (s.setDir k.area (s.store.dir k.area).damaged).failLoad k .corrupt 0xFF#8

/-- The checks of R175 and R176 on a program, and its apply. -/
def State.checkLoad (s : State) (k : LoadCtx) (p : Program) : State :=
  match p.slots.find? (s.conflicts k.chan) with
  | some q => s.failLoad k .slotConflict (b8 q.1.val)
  | none =>
    match p.hops.findIdx? (dwellShort (s.chan k.chan).cfg.ramp) with
    | some j => s.failLoad k .dwellShort (b8 j)
    | none => s.applyLoad k p

/-- The engine has read the image into the staging buffer (R173), which holds up to 1,808 bytes (R169;
assumption log 19). -/
def State.stage (s : State) (k : LoadCtx) (r : CommitRec) : State :=
  { s with loader := { s.loader with
      staging := s.store.areaSlice k.area 0 (min r.imageLength.toNat Config.stagingBytes) } }

/-- The completion event of a load (R173 to R178). An image that matches its CRC and still does not
parse ends CORRUPT (assumption log 20). -/
def State.completeLoad (s : State) (k : LoadCtx) : State :=
  match (s.store.dir k.area).commit with
  | none => s.corruptLoad k
  | some r =>
    let s1 := s.stage k r
    let img := stagedByte s1.loader.staging
    if imageCrc img r.imageLength.toNat ≠ r.imageCrc then s1.corruptLoad k
    else match programIn img with
      | none => s1.corruptLoad k
      | some p => s1.checkLoad k p

/-- LOAD: the checks of Table 10-1 (R170). -/
def opLoad (area channel start : Byte) (seq : Byte) (s : State) : State × List Byte :=
  match areaOf area, chanOf channel, yesNo start with
  | some a, some c, some st =>
    if s.store.engine ≠ .idle then refuse .storeBusy s
    else if (s.store.dir a).st ≠ .valid then refuse .areaState s
    else if (s.chan c).st ≠ .idle then refuse .notIdle s
    else (s.acceptLoad { area := a, chan := c, start := st, seq := seq }, [statusCode .started])
  | _, _, _ => refuse .badValue s

/-! Autostart (R181, R182). -/

/-- The commit record of an area that autostart takes: VALID, autostart set, not revoked. -/
def Dir.autostartRec (d : Dir) : Option CommitRec :=
  if d.st = .valid ∧ d.revoked = false then
    d.commit.bind fun r => if r.autostart then some r else none
  else none

/-- The autostart list from these areas on, given the channels already named (R181). -/
def autoList (st : Store) : List (Fin 8) → List Chan → List AutoArea
  | [], _ => []
  | a :: rest, named =>
    match (st.dir a).autostartRec with
    | none => autoList st rest named
    | some r =>
      { area := a, chosen := !named.contains r.chan, chan := r.chan } :: autoList st rest (r.chan :: named)

/-- The autostart list is formed and the next position is its first area (R181). -/
def State.formAutostart (s : State) : State :=
  { s with loader := { s.loader with auto := autoList s.store (List.finRange 8) [], autoPos := 0 } }

/-- The area at the next position of the autostart list. -/
def State.nextAuto (s : State) : Option AutoArea := s.loader.auto[s.loader.autoPos]?

/-- An autostart step is due: the engine is IDLE and an area stands at the next position (R182). -/
def State.autoDue (s : State) : Bool := s.store.engine == .idle && s.nextAuto.isSome

/-- One autostart step on the area taken (R182). The channel is the one the area's commit record names,
or the one the list was formed with where the area has none any more (assumption log 27). A chosen area that has
been erased and committed again with autostart since is loaded as its new record says (R183; assumption log 46).
A channel is tested as it stands at the step, so that one on which a host LOAD has come and gone, and which is IDLE
again, is loaded (R182, against R183's words on such a LOAD; assumption log 50). -/
def State.autoStep (s : State) (a : AutoArea) : State :=
  let c := ((s.store.dir a.area).commit.map CommitRec.chan).getD a.chan
  let s1 := State.setEngine
    { s with loader := { s.loader with autoPos := s.loader.autoPos + 1 } } .reading
  if !a.chosen then s1.report (.loadDone 0#8 c a.area .areaState 0xFE#8)
  else match (s.store.dir a.area).autostartRec with
    | none => s1.report (.loadDone 0#8 c a.area .areaState 0xFF#8)
    | some r =>
      if (s.chan c).st ≠ .idle then s1.report (.loadDone 0#8 c a.area .notIdle 0xFF#8)
      else s1.acceptLoad { area := a.area, chan := c, start := r.startAfter, seq := 0#8 }

end Sys2Proof.Machine
end

