-- ==== Sys2Proof/Machine/Link.lean ====
section
/-! DEFINITION. The host link (spec 06): the transmit arbiter, the retry cache, and what becomes of an
accepted frame. -/

namespace Sys2Proof.Machine

/-! The transmit arbiter (R122). -/

/-- A frame becomes the frame in transmission. -/
def State.transmit (s : State) (o : Outgoing) : State := { s with link := { s.link with tx := some o } }

/-- The completion report begins its transmission, and the store engine becomes IDLE (R144). -/
def State.sendCompletion (s : State) (r : Report) : State :=
  State.setEngine
    { s.transmit (.report (s.reports.frame r)) with reports := s.reports.departCompletion } .idle

/-- POWER_UP begins its transmission: the store engine becomes IDLE and autostart begins (R148,
R181). -/
def State.powerUpLeaves (s : State) : State := (s.setEngine .idle).formAutostart

/-- The head of the ordinary queue begins its transmission (R138, R142, R146). -/
def State.sendHead (s : State) (r : Report) : State :=
  let s1 := { s.transmit (.report (s.reports.frame r)) with reports := s.reports.departHead }
  match r.body with
  | .powerUp .. => s1.powerUpLeaves
  | _ => s1

/-- The arbiter's choice, where the line is free (R122). Between the last character of a RESET FULL reply
and the reset it brings about, the arbiter starts nothing (R127; assumption log 15). -/
def State.arbitrate (s : State) : State :=
  if s.link.tx.isSome || s.link.fullResetDue then s
  else match s.link.waiting with
    | o :: rest => State.transmit { s with link := { s.link with waiting := rest } } o
    | [] =>
      match s.reports.completion with
      | some r => s.sendCompletion r
      | none =>
        match s.reports.queue with
        | r :: _ => s.sendHead r
        | [] => s

/-- The end of an event: the arbiter chooses (R122), once and after every report of the event (R143; assumption
log 47), and the ports take the samples of the period so far
(R109). -/
def State.finish (s : State) : State := s.arbitrate.drivePorts

/-! The reply slots, the refusal slot and the retry cache (R118 to R121). -/

/-- Whether a place of the transmitter holds a reply. -/
def Outgoing.isReply : Outgoing → Bool
  | .reply _ => true
  | _ => false

/-- Whether it holds a refusal. -/
def Outgoing.isRefusal : Outgoing → Bool
  | .refusal _ => true
  | _ => false

/-- A reply slot is free (R118). -/
def Link.roomy (l : Link) : Bool := decide (l.waiting.countP Outgoing.isReply < Config.window)

/-- The refusal slot is occupied (R119). -/
def Link.refusalWaits (l : Link) : Bool := l.waiting.any Outgoing.isRefusal

/-- A reply that answers a request of this sequence and check value. -/
def Outgoing.answers (seq : Byte) (check : BitVec 16) : Outgoing → Bool
  | .reply r => r.seq == seq && r.check == check
  | _ => false

/-- What the retry lookup finds (Table 6-5). -/
inductive Lookup where
  | pending
  | replay (frame : List Byte)
  | displace
  | fresh
  deriving DecidableEq, Repr

/-- The retry lookup (R121). -/
def Link.lookup (l : Link) (seq : Byte) (check : BitVec 16) : Lookup :=
  if seq = 0#8 then .fresh
  else if l.waiting.any (Outgoing.answers seq check) || l.tx.any (Outgoing.answers seq check) then .pending
  else match l.cache.find? (fun e => e.seq == seq) with
    | none => .fresh
    | some e => if e.check = check then .replay e.frame else .displace

/-- The cache without an entry of this sequence. -/
def cacheWithout (seq : Byte) (cache : List CacheEntry) : List CacheEntry :=
  cache.filter fun e => e.seq != seq

/-- The cache after an entry is made (R120). -/
def cacheEnter (cache : List CacheEntry) (e : CacheEntry) : List CacheEntry :=
  let rest := cacheWithout e.seq cache
  (if rest.length < Config.cacheCapacity then rest else rest.tail) ++ [e]

/-- A filled reply slot or refusal slot (R118, R119). -/
def State.place (s : State) (o : Outgoing) : State :=
  { s with link := { s.link with waiting := s.link.waiting ++ [o] } }

/-- A refusal frame (R116, R118). -/
def refusalFrame (seq : Byte) (st : Status) (kind : Byte) : List Byte :=
  mkFrame 0xFF#8 seq [statusCode st, kind]

/-- A frame that finds all four reply slots full (R118). -/
def State.refuseWindow (s : State) (kind seq : Byte) : State :=
  if s.link.refusalWaits then s.report (.linkFault .overrun)
  else s.place (.refusal (refusalFrame seq .windowFull kind))

/-- Executes a frame and places its reply. The reply that leaves the receiver deaf is that of a RESET
FULL (R127). -/
def State.execute (s : State) (seq : Byte) (check : BitVec 16) (run : State → State × List Byte) :
    State :=
  let out := run s
  out.1.place (.reply { seq := seq, check := check, frame := out.2, full := out.1.link.deaf })

/-- The steps of R115 on an accepted frame; `run` executes it and gives its reply frame. -/
def State.acceptFrame (s : State) (kind seq : Byte) (payload : List Byte)
    (run : State → State × List Byte) : State :=
  let check := frameCheck kind seq payload
  match s.link.lookup seq check with
  | .pending => s
  | .replay frame =>
    if s.link.roomy then
      s.place (.reply { seq := seq, check := check, frame := frame, full := false })
    else s.refuseWindow kind seq
  | .displace =>
    let s1 := { s with link := { s.link with cache := cacheWithout seq s.link.cache } }
    if s.link.roomy then s1.execute seq check run else s1.refuseWindow kind seq
  | .fresh =>
    if s.link.roomy then s.execute seq check run else s.refuseWindow kind seq

/-- The reply frame of a request: the generic length check, then the owner (R132, R130). -/
def answer (k : Kind) (seq : Byte) (payload : List Byte) (op : State → State × List Byte) (s : State) :
    State × List Byte :=
  if lengthFits k payload then ((op s).1, mkFrame (replyKind k) seq (op s).2)
  else (s, mkFrame (replyKind k) seq [statusCode .badLength])

/-- The answer to a frame of an unknown kind (R116). -/
def answerUnknown (kind seq : Byte) (s : State) : State × List Byte :=
  (s, refusalFrame seq .unknownKind kind)

/-! The receiver (R111 to R114). -/

/-- The receiver is in HUNT with no partial frame (R111). -/
def State.hunt (s : State) : State := { s with link := { s.link with rx := .hunt, buf := [] } }

/-- A fault of the receiver: LINK_FAULT, and back to HUNT (Table 6-3). -/
def State.receiverFault (s : State) (reason : FaultReason) : State :=
  (s.hunt.report (.linkFault reason)).finish

/-! The end of a transmission (R120, R122, R127). -/

/-- A reply whose last character has been sent enters the retry cache (R120); the one of a RESET FULL
makes the reset due (R127). -/
def State.replySent (s : State) (r : Reply) : State :=
  let cache := if r.seq = 0#8 then s.link.cache
    else cacheEnter s.link.cache { seq := r.seq, check := r.check, frame := r.frame }
  { s with link := { s.link with tx := none, cache := cache, fullResetDue := s.link.fullResetDue || r.full } }

/-- The last character of the frame in transmission has been sent (R122). -/
def State.transmissionEnd (s : State) : State :=
  match s.link.tx with
  | none => s
  | some (.reply r) => (s.replySent r).finish
  | some (.refusal _) => State.finish { s with link := { s.link with tx := none } }
  | some (.report _) => State.finish { s with link := { s.link with tx := none } }

end Sys2Proof.Machine
end

