-- ==== Sys2Proof/Machine/Queues.lean ====
section
/-! DEFINITION. The requests of the channel queues, the hop engines and the gates (spec 02, 03, 05). -/

namespace Sys2Proof.Machine

/-! HOP_APPEND (R26 to R31). -/

/-- A HOP_APPEND answer: status, entry index and queue length (R26). -/
def appendAnswer (st : Status) (index : Nat) (length : Nat) : List Byte :=
  [statusCode st, b8 index, b8 length]

/-- The room of a channel's queue (R29). -/
def Channel.room (ch : Channel) : Nat :=
  if ch.cfg.cycle && ch.cur.isSome then Config.queueCapacity - ch.queue.length - 1
  else Config.queueCapacity - ch.queue.length

/-- The entries join at the tail; where the queue was empty, a WAITING channel, or one in OVERSTAY that
does not wait on its own current hop, evaluates the new head (R31, R32, R38). -/
def State.appendEntries (s : State) (c : Chan) (es : List HopEntry) : State :=
  let s1 := (s.setChan c { s.chan c with queue := (s.chan c).queue ++ es }).pinAll es
  if (s.chan c).queue.isEmpty &&
      ((s.chan c).st == .waiting || ((s.chan c).st == .overstay && !(s.chan c).selfHead)) then
    s1.evaluate c false
  else s1

/-- Checks 4 to 6 of Table 2-3 on entries that are in range (R29, R30), and the append. -/
def appendChecked (c : Chan) (es : List HopEntry) (s : State) : State × List Byte :=
  let ch := s.chan c
  let refused := fun (st : Status) (i : Nat) => (s, appendAnswer st i ch.queue.length)
  if ch.room < es.length then refused .queueFull ch.room
  else match es.findIdx? (fun e => (s.slot e.slot).tone.isNone) with
    | some i => refused .slotEmpty i
    | none =>
      match es.findIdx? (dwellShort ch.cfg.ramp) with
      | some i => refused .dwellShort i
      | none =>
        (s.appendEntries c es, appendAnswer .ok 0 (ch.queue.length + es.length))

/-- Checks 2 and 3 of Table 2-3 (R27, R28), then the others. -/
def appendParsed (c : Chan) (count : Byte) (entries : List Byte) (s : State) : State × List Byte :=
  let refused := fun (st : Status) (i : Nat) => (s, appendAnswer st i (s.chan c).queue.length)
  if count.toNat = 0 ∨ 8 < count.toNat then refused .badLength 0
  else match splitEntries count.toNat 0 entries with
    | .error i => refused .badLength i
    | .ok raws =>
      match raws.findIdx? (fun bs => (entryOf (wireEntry bs)).isNone) with
      | some i => refused .badValue i
      | none => appendChecked c (raws.filterMap fun bs => entryOf (wireEntry bs)) s

/-- HOP_APPEND (R26): the channel test of R27, check 1, then the rest. -/
def opHopAppend (channel count : Byte) (entries : List Byte) (s : State) : State × List Byte :=
  match chanOf channel with
  | none => (s, appendAnswer .badValue 0 0)
  | some c =>
    if (s.chan c).st = .loading then (s, appendAnswer .channelBusy 0 (s.chan c).queue.length)
    else appendParsed c count entries s

/-! HOP_FLUSH (R33 to R35, R69). -/

/-- Every entry leaves the queue and unpins its slot (R33). -/
def State.emptyQueue (s : State) (c : Chan) : State :=
  (s.unpinAll (s.chan c).queue).setChan c { s.chan c with queue := [] }

/-- A LINE edge of the period still to be taken has no effect on the current hop that a flush in cycle mode
leaves as the head (R36; assumption log 38). -/
def State.dropCycleEdge (s : State) (c : Chan) : State :=
  s.setChan c { s.chan c with edgeDue := (s.chan c).edgeDue && !(s.chan c).cfg.cycle }

/-- A flush by channel state. A flush of an empty queue changes nothing, but in LOADING it cancels the
load (R33 to R36, R69, R179). In OVERSTAY on a channel that waits on its own current hop the head is not removed,
and a LINE edge of the period still to be taken meets it (R36, R38, R55; assumption log 38). In SWITCHING with the
gate CLOSED already, a blank current hop that is met is retaken at once, by R52 and not by way of R70's SWITCHING
(assumption log 49). -/
def State.flush (s : State) (c : Chan) : State :=
  let s1 := s.emptyQueue c
  if (s.chan c).st = .loading then s1.cancelLoad
  else if (s.chan c).queue.isEmpty then s
  else match (s.chan c).st with
    | .waiting => s1.withdraw c
    | .overstay =>
      if (s.chan c).selfHead then s1.evaluate c false
      else ((s1.withdraw c).dropCycleEdge c).afterRemoval c false
    | .switching =>
      if (s.chan c).selfHead then s1
      else
        let onlyBlank := HoldSet.isEmpty { (s.chan c).gate.hold with blank := false }
        (((s1.withdraw c).enter c .overstay).afterRemoval c onlyBlank).dropBlank c
    | _ => s1

/-- HOP_FLUSH (R33). -/
def opHopFlush (channel : Byte) (s : State) : State × List Byte :=
  match chanOf channel with
  | none => refuse .badValue s
  | some c => answerOk [b8 (s.chan c).queue.length] (s.flush c)

/-- QUEUE_GET (R37). -/
def opQueueGet (channel first count : Byte) (s : State) : State × List Byte :=
  match chanOf channel with
  | none => refuse .badValue s
  | some c =>
    if 63 < first.toNat ∨ count.toNat = 0 ∨ 8 < count.toNat then refuse .badValue s
    else
      let q := (s.chan c).queue
      let es := (q.drop first.toNat).take count.toNat
      answerOk (b8 q.length :: b8 es.length :: es.flatMap encodeEntry) s

/-! START, STOP, CHANNEL_CONFIG, CHANNEL_GET (R66, R67, R71, R72). -/

/-- START (R66). -/
def opStart (channel : Byte) (s : State) : State × List Byte :=
  match chanOf channel with
  | none => refuse .badValue s
  | some c =>
    match (s.chan c).st with
    | .loading => refuse .channelBusy s
    | .idle =>
      let s1 := s.startChannel c
      answerOk [chanStateCode (s1.chan c).st] s1
    | _ => refuse .notIdle s

/-- STOP's effect in every channel state (R67); in LOADING it cancels the load (R179). -/
def State.stopOrCancel (s : State) (c : Chan) (now : Bool) : State :=
  if (s.chan c).st = .loading then s.cancelLoad else s.stopChannel c now

/-- STOP (R67). -/
def opStop (channel : Byte) (now : Bool) (s : State) : State × List Byte :=
  match chanOf channel with
  | none => refuse .badValue s
  | some c =>
    let s1 := s.stopOrCancel c now
    answerOk [chanStateCode (s1.chan c).st] s1

/-- STOP by the mode byte of its frame (R67, R133). -/
def opStopMode (channel mode : Byte) (s : State) : State × List Byte :=
  if mode = 0#8 then opStop channel false s
  else if mode = 1#8 then opStop channel true s
  else refuse .badValue s

/-- A configuration from its fields, in the ranges of Table 3-8 (R71). -/
def configOf (policy cycle edge : Byte) (ramp : BitVec 16) (follow : Byte) (pairTimeout : BitVec 24) :
    Option ChanConfig :=
  match policyOf policy, yesNo cycle, edgeOf edge, yesNo follow with
  | some p, some cy, some e, some f =>
    if 1023 < ramp.toNat then none
    else some { policy := p, cycle := cy, edge := e, ramp := ramp.toNat, follow := f,
                pairTimeout := pairTimeout.toNat }
  | _, _, _, _ => none

/-- A new configuration, with the LINE reason as gate-follow and the last sample give it (R71, R102). -/
def State.configure (s : State) (c : Chan) (cfg : ChanConfig) : State :=
  let s1 := s.setChan c { s.chan c with cfg := cfg }
  s1.changeHold c { (s.chan c).gate.hold with line := cfg.follow && s.gateLine }

/-- CHANNEL_CONFIG (R71). -/
def opChannelConfig (channel policy cycle edge : Byte) (ramp : BitVec 16) (follow : Byte)
    (pairTimeout : BitVec 24) (s : State) : State × List Byte :=
  match chanOf channel with
  | none => refuse .badValue s
  | some c =>
    if (s.chan c).st = .loading then refuse .channelBusy s
    else if (s.chan c).st ≠ .idle ∨ (s.chan c).queue.isEmpty = false then refuse .notIdle s
    else match configOf policy cycle edge ramp follow pairTimeout with
      | none => refuse .badValue s
      | some cfg => answerOk [] (s.configure c cfg)

/-- The pair wait state: its form and the periods remaining (R74, R131). -/
def pairWaitBytes (ch : Channel) : List Byte :=
  match ch.ready, ch.timer with
  | false, _ => 0#8 :: be24 0#24
  | true, none => 1#8 :: be24 0#24
  | true, some n => 2#8 :: be24 (BitVec.ofNat 24 n)

/-- The body of CHANNEL_GET (R72, Table 7-9). -/
def channelBody (ch : Channel) : List Byte :=
  [chanStateCode ch.st, b8 ch.queue.length] ++ be24 (BitVec.ofNat 24 ch.dwell) ++
  [boolCode ch.stopAtEnd, gateStateCode ch.gate.st, holdCode ch.gate.hold] ++
  be16 (BitVec.ofNat 16 ch.gate.gain) ++
  [policyCode ch.cfg.policy, boolCode ch.cfg.cycle, edgeCode ch.cfg.edge] ++
  be16 (BitVec.ofNat 16 ch.cfg.ramp) ++ [boolCode ch.cfg.follow] ++
  be24 (BitVec.ofNat 24 ch.cfg.pairTimeout) ++ pairWaitBytes ch ++
  [boolCode ch.cur.isSome] ++ (ch.cur.map encodeEntry).getD []

/-- CHANNEL_GET (R72). -/
def opChannelGet (channel : Byte) (s : State) : State × List Byte :=
  match chanOf channel with
  | none => refuse .badValue s
  | some c => answerOk (channelBody (s.chan c)) s

/-! GATE (R100). -/

/-- The values of a gate in the GATE reply. -/
def gateBody (g : Gate) : List Byte :=
  [gateStateCode g.st, holdCode g.hold] ++ be16 (BitVec.ofNat 16 g.gain)

/-- GATE adds or removes HOST (R100). -/
def opGate (channel : Byte) (hold : Bool) (s : State) : State × List Byte :=
  match chanOf channel with
  | none => refuse .badValue s
  | some c =>
    let s1 := s.changeHold c { (s.chan c).gate.hold with host := hold }
    answerOk (gateBody (s1.chan c).gate) s1

/-- GATE by the action byte of its frame (R100, R133). -/
def opGateAction (channel action : Byte) (s : State) : State × List Byte :=
  if action = 0#8 then opGate channel true s
  else if action = 1#8 then opGate channel false s
  else refuse .badValue s

/-- The sampled level of the GATE line takes effect on one gate (R101). -/
def State.followLine (s : State) (c : Chan) : State :=
  s.changeHold c { (s.chan c).gate.hold with line := (s.chan c).cfg.follow && s.gateLine }

/-- A change of the GATE line's sampled level (R101). -/
def State.gateLineChange (s : State) : State :=
  (State.followLine { s with gateLine := s.gatePin } .A).followLine .B

end Sys2Proof.Machine
end

