-- ==== Sys2Proof/Machine/Sample.lean ====
section
/-! DEFINITION. The sample period (R14): the events of a period, and the advance to the next. -/

namespace Sys2Proof.Machine

/-- An event of the present period takes place if it is due; an event that is not due does not occur
(assumption log 7). On a free line every report of the event is made before the departure of the first, so that a
later one of its key meets it while it waits (R143 allows both orders; assumption log 47). -/
def State.takeIf (s : State) (due : Bool) (effect : State → State) : State :=
  if due then (effect s).finish else s

/-- The sampled GATE line level differs from the one the gates hold (R101). -/
def State.gateLineDue (s : State) : Bool := s.gatePin != s.gateLine

/-! The events, each taken if it is due. -/

/-- SYNC_EDGE (R18). -/
def State.doSyncEdge (s : State) : State := s.takeIf s.epoch.syncDue State.syncRise
/-- WRAP (R15). -/
def State.doWrap (s : State) : State := s.takeIf s.epoch.wrapDue State.takeWrap
/-- GATE_LINE_CHANGE (R101). -/
def State.doGateLine (s : State) : State := s.takeIf s.gateLineDue State.gateLineChange
/-- GATE_ARRIVAL (R94). -/
def State.doArrival (s : State) (c : Chan) : State :=
  s.takeIf (s.chan c).gate.arrived fun s => s.gateArrive c
/-- DWELL_EXPIRY (R54). -/
def State.doExpiry (s : State) (c : Chan) : State := s.takeIf (s.chan c).expiryDue fun s => s.expire c
/-- TRIGGER_EDGE (R55). -/
def State.doEdge (s : State) (c : Chan) : State := s.takeIf (s.chan c).edgeDue fun s => s.takeEdge c
/-- TIME_ARRIVAL (R57). -/
def State.doTime (s : State) (c : Chan) : State := s.takeIf (s.timeDue c) fun s => s.timeArrive c
/-- PAIR_TIMER_EXPIRY (R82). -/
def State.doPairTimer (s : State) (c : Chan) : State :=
  s.takeIf (s.chan c).pairExpiryDue fun s => s.pairExpire c

/-- The events of the hop engine and the gate of one channel. -/
def State.doChannel (s : State) (c : Chan) : State := (((s.doArrival c).doExpiry c).doEdge c).doTime c

/-- The events of the present period that no command has taken are taken, in a fixed order (assumption
log 8); a TIME head of value 0 that an EPOCH NOW of a stop has met is among them (assumption log 48). -/
def State.closePeriod (s : State) : State :=
  (((((s.doSyncEdge.doWrap).doGateLine).doChannel .A).doChannel .B).doPairTimer .A).doPairTimer .B

/-- The period ends: the events that are left come, and a wrap with no epoch event beside it makes its report
(R15; assumption log 11). -/
def State.endPeriod (s : State) : State := s.closePeriod.takeIf s.closePeriod.epoch.wrapHeld State.reportWrap

/-- A request or completion that comes while SCLK is stopped: the last period has ended, so that every event
of it comes first, and its samples have been driven (R18, R50, R109; assumption log 9). -/
def State.noteClock (s : State) (sclkStopped : Bool) : State :=
  if sclkStopped then
    let t := s.closePeriod
    { t with ports := { t.ports with periodOpen := false } }
  else s

/-! The advance to the next period. -/

/-- The edge between two samples of a line: rising, falling or none. With no sample before it there is
none (R18, R73). -/
def edgeBetween (before : Option Bool) (now : Bool) : Option Bool :=
  match before with
  | none => none
  | some b => if b = now then none else some now

/-- The epoch block in the next period, with the level of SYNC in it (R14, R15, R18). -/
def Epoch.advance (e : Epoch) (sync : Bool) : Epoch :=
  { e with count := e.count + 1#48, syncLevel := some sync,
           syncDue := edgeBetween e.syncLevel sync == some true,
           wrapDue := e.count == BitVec.allOnes 48 }

/-- The accumulator in the next period, if no switch is made in it (R47). -/
def State.movedAcc (s : State) (c : Chan) : BitVec 32 :=
  match (s.chan c).cur with
  | some hop => (s.chan c).acc + (s.toneOf hop.slot).word
  | none => (s.chan c).acc

/-- Whether an edge is of a configured kind (R55). -/
def EdgeKind.counts : EdgeKind → Option Bool → Bool
  | .rising, e => e == some true
  | .falling, e => e == some false
  | .both, e => e.isSome

/-- A channel in the next period, with its trigger line's level in it: the accumulator (R47), the dwell
counter (R53), the pair timer (R81), the gate (R91) and the line, by the edge kind now configured (R55,
R71). The accumulator moves before the period's events, so that it has moved by the hop's word also in the period
in which ENDING completes and releases the hop (assumption log 43). -/
def Channel.advance (ch : Channel) (acc : BitVec 32) (trig : Bool) : Channel :=
  { ch with acc := acc, dwell := if ch.cur.isSome then ch.dwell - 1 else ch.dwell,
            timer := ch.timer.map (· - 1), gate := ch.gate.step ch.cfg.ramp,
            trigLevel := some trig, edgeDue := ch.cfg.edge.counts (edgeBetween ch.trigLevel trig),
            coherentNow := none }

/-- The next sample period begins: every block of the SCLK domain moves, the lines are sampled, and one
pair of samples is driven with its strobe (R14, R47, R53, R81, R91, R109). The samples of the period before
are now final (assumption log 28). -/
def State.advance (s : State) (l : Lines) : State :=
  State.drivePorts
    { s with epoch := s.epoch.advance l.sync,
             chA := s.chA.advance (s.movedAcc .A) l.trigA,
             chB := s.chB.advance (s.movedAcc .B) l.trigB,
             gatePin := l.gate, reports := s.reports.nextPeriod,
             ports := { s.ports with
               priorA := s.ports.douta, priorB := s.ports.doutb,
               strobes := s.ports.strobes + 1, periodOpen := true } }

end Sys2Proof.Machine
end

