-- ==== Sys2Proof/Machine/Store.lean ====
section
/-! DEFINITION. The profile store (spec 09): its requests, the completion of its operations, and the
power-up scan. -/

namespace Sys2Proof.Machine

/-- The engine takes an operation on an area: its state and the area's new directory record (R157). -/
def State.beginStore (s : State) (e : EngineState) (area : Fin 8) (d : Dir) (op : StoreOp) : State :=
  { s with store := { s.store.setDir area d with engine := e, op := some op } }

/-- The answer to an accepted request of the store (R157). -/
def answerStarted (body : List Byte) (s : State) : State × List Byte := (s, statusCode .started :: body)

/-- STORE_ERASE (R154, R157, R158). -/
def opStoreErase (area : Byte) (seq : Byte) (wp : Bool) (s : State) : State × List Byte :=
  match areaOf area with
  | none => refuse .badValue s
  | some a =>
    let d := s.store.dir a
    if s.store.engine ≠ .idle then refuse .storeBusy s
    else if Config.eraseLimit ≤ d.eraseCount then
      (s, statusCode .worn :: be16 (BitVec.ofNat 16 d.eraseCount))
    else if wp then refuse .storeProtected s
    else answerStarted (be16 (BitVec.ofNat 16 (d.eraseCount + 1)))
      (s.beginStore .erasing a { d with eraseCount := d.eraseCount + 1, marker := .erasing }
        (.erase a seq))

/-- STORE_WRITE (R157, R159). -/
def opStoreWrite (area chunk : Byte) (data : List Byte) (seq : Byte) (wp : Bool) (s : State) :
    State × List Byte :=
  match areaOf area with
  | none => refuse .badValue s
  | some a =>
    let d := s.store.dir a
    if 61 < chunk.toNat then refuse .badValue s
    else if s.store.engine ≠ .idle then refuse .storeBusy s
    else if d.st ≠ .blank ∧ d.st ≠ .opened then refuse .areaState s
    else if d.written.contains chunk.toNat then refuse .notBlank s
    else if wp then refuse .storeProtected s
    else answerStarted []
      (s.beginStore .writing a { d with marker := .writing } (.write a seq chunk.toNat data))

/-- STORE_COMMIT (R157, R160); the marker is set when validation has passed. -/
def opStoreCommit (area autostart channel startAfter : Byte) (seq : Byte) (wp : Bool) (s : State) :
    State × List Byte :=
  match areaOf area, yesNo autostart, chanOf channel, yesNo startAfter with
  | some a, some au, some c, some sa =>
    if s.store.engine ≠ .idle then refuse .storeBusy s
    else if (s.store.dir a).st ≠ .opened then refuse .areaState s
    else if wp then refuse .storeProtected s
    else answerStarted []
      (s.beginStore .committing a (s.store.dir a) (.commit a seq au c sa none))
  | _, _, _, _ => refuse .badValue s

/-- STORE_REVOKE (R157, R162). -/
def opStoreRevoke (area : Byte) (seq : Byte) (wp : Bool) (s : State) : State × List Byte :=
  match areaOf area with
  | none => refuse .badValue s
  | some a =>
    if s.store.engine ≠ .idle then refuse .storeBusy s
    else if (s.store.dir a).autostartRec.isNone then refuse .areaState s
    else if wp then refuse .storeProtected s
    else answerStarted []
      (s.beginStore .revoking a { s.store.dir a with marker := .revoking } (.revoke a seq))

/-! The reading requests (R163 to R166). -/

/-- STORE_READ (R163). -/
def opStoreRead (area : Byte) (offset : BitVec 16) (length : Byte) (s : State) : State × List Byte :=
  match areaOf area with
  | none => refuse .badValue s
  | some a =>
    if length.toNat = 0 ∨ 200 < length.toNat ∨ Config.areaBytes < offset.toNat + length.toNat then
      refuse .badValue s
    else if s.store.engine ≠ .idle then refuse .storeBusy s
    else answerOk (be16 offset ++ length :: s.store.areaSlice a offset.toNat length.toNat) s

/-- The offset of the first byte of an area that is not erased (R164). -/
def Store.firstUsed (st : Store) (area : Fin 8) : Option Nat :=
  (List.range Config.areaBytes).find? fun i => st.areaByte area i != Config.erased

/-- STORE_BLANK (R164). -/
def opStoreBlank (area : Byte) (s : State) : State × List Byte :=
  match areaOf area with
  | none => refuse .badValue s
  | some a =>
    if s.store.engine ≠ .idle then refuse .storeBusy s
    else match s.store.firstUsed a with
      | none => answerOk (0#8 :: be16 0#16) s
      | some i => answerOk (1#8 :: be16 (BitVec.ofNat 16 i)) s

/-- STORE_DIGEST (R165). -/
def opStoreDigest (area first last : Byte) (s : State) : State × List Byte :=
  match areaOf area with
  | none => refuse .badValue s
  | some a =>
    if 63 < first.toNat ∨ 63 < last.toNat ∨ last.toNat < first.toNat then refuse .badValue s
    else if s.store.engine ≠ .idle then refuse .storeBusy s
    else answerOk (be16 (crc16 (s.store.areaSlice a (Config.chunkBytes * first.toNat)
      (Config.chunkBytes * (last.toNat - first.toNat + 1))))) s

/-- The autostart flags byte and autostart channel of STORE_INFO (R131, R166). -/
def infoFlags (d : Dir) : List Byte :=
  match d.st, d.commit with
  | .valid, some r =>
    [BitVec.ofNat 8 (r.autostart.toNat + 2 * d.revoked.toNat + 4 * r.startAfter.toNat), chanCode r.chan]
  | _, _ => [0#8, 0#8]

/-- One area of STORE_INFO (R166). -/
def infoArea (d : Dir) : List Byte :=
  areaStateCode d.st :: be16 (BitVec.ofNat 16 d.eraseCount) ++ b8 d.written.length :: infoFlags d

/-- STORE_INFO (R166). -/
def opStoreInfo (s : State) : State × List Byte :=
  if s.store.engine ≠ .idle then refuse .storeBusy s
  else answerOk (s.store.dirs.toList.flatMap infoArea) s

/-! The completion of operations (R153, R156). -/

/-- The STORE_DONE report of an operation that ended OK (R156). -/
def storeDone (seq : Byte) (kind : StoreKind) (area : Fin 8) : ReportBody :=
  .storeDone seq kind area .ok 0#8 0#16

/-- A completion event: the area's record takes the outcome and STORE_DONE is made; the engine keeps its
state until the report leaves (R156). -/
def State.endStore (s : State) (store : Store) (area : Fin 8) (d : Dir) (r : ReportBody) : State :=
  State.report { s with store := { store.setDir area d with op := none } } r

/-- An erase completes (R158). The bytes of an operation take their values in its completion event, so that a
loss of retention on one of them since acceptance is overwritten (assumption log 40). -/
def State.eraseDone (s : State) (area : Fin 8) (seq : Byte) : State :=
  s.endStore (s.store.eraseChunks area 64) area
    { s.store.dir area with st := .blank, marker := .none, written := [], commit := none, revoked := false }
    (storeDone seq .erase area)

/-- A chunk write completes (R159); its bytes take their values in this event (assumption log 40). -/
def State.writeDone (s : State) (area : Fin 8) (seq : Byte) (chunk : Nat) (data : List Byte) : State :=
  s.endStore (s.store.program area chunk data) area
    { s.store.dir area with
      st := .opened, marker := .none, written := chunkInsert (s.store.dir area).written chunk }
    (storeDone seq .write area)

/-- The commit record of a validated image (R136). -/
def commitRecOf (img : Nat → Byte) (p : Program) (autostart : Bool) (chan : Chan) (startAfter : Bool) :
    CommitRec :=
  { imageLength := u16At img 6, imageCrc := u16At img 14, slotUse := slotUseOf (p.slots.map Prod.fst),
    slotCount := img 3, hopCount := img 4, autostart := autostart, chan := chan,
    startAfter := startAfter }

/-- Validation ends (R160, R161): IMAGE_INVALID, which leaves the directory as it was, or the marker and
the record phase. The whole image is read in this event (assumption log 41). -/
def State.validate (s : State) (area : Fin 8) (seq : Byte) (autostart : Bool) (chan : Chan)
    (startAfter : Bool) : State :=
  match validateImage (s.store.areaByte area) with
  | .error (reason, offset) =>
    s.endStore s.store area (s.store.dir area)
      (.storeDone seq .commit area .imageInvalid (b8 reason) (BitVec.ofNat 16 offset))
  | .ok p =>
    s.beginStore .committing area { s.store.dir area with marker := .committing }
      (.commit area seq autostart chan startAfter
        (some (commitRecOf (s.store.areaByte area) p autostart chan startAfter)))

/-- The commit record is written (R160); its bytes take their values in this event (assumption log 40). -/
def State.commitDone (s : State) (area : Fin 8) (seq : Byte) (r : CommitRec) : State :=
  s.endStore (s.store.program area Config.commitChunk (commitRecordBytes r)) area
    { s.store.dir area with st := .valid, marker := .none, commit := some r, revoked := false }
    (storeDone seq .commit area)

/-- The revoke record of an area: it carries the image CRC of the commit record (R136), which is taken from the
record the directory holds (assumption log 42). -/
def Store.revokeBytes (st : Store) (area : Fin 8) : List Byte :=
  revokeRecordBytes (((st.dir area).commit.map CommitRec.imageCrc).getD 0#16)

/-- The revoke record is written (R162); its bytes take their values in this event (assumption log 40). -/
def State.revokeDone (s : State) (area : Fin 8) (seq : Byte) : State :=
  s.endStore (s.store.program area Config.revokeChunk (s.store.revokeBytes area)) area
    { s.store.dir area with marker := .none, revoked := true }
    (storeDone seq .revoke area)

/-! The power-up scan (R168). -/

/-- A chunk of an area. -/
def Store.chunkByte (st : Store) (area : Fin 8) (chunk : Nat) (i : Nat) : Byte :=
  st.areaByte area (Config.chunkBytes * chunk + i)

/-- A chunk reads all 0xFF. -/
def Store.chunkErased (st : Store) (area : Fin 8) (chunk : Nat) : Bool :=
  (List.range Config.chunkBytes).all fun i => st.chunkByte area chunk i == Config.erased

/-- What the scan makes of an area the directory records VALID, with no marker (R168, step 2). -/
def Store.scanValid (st : Store) (area : Fin 8) : Dir :=
  let d := st.dir area
  let img := st.areaByte area
  match intactCommit (st.chunkByte area Config.commitChunk) img with
  | none => d.damaged
  | some r =>
    if imageCrc img r.imageLength.toNat ≠ r.imageCrc then d.damaged
    else if intactRevoke (st.chunkByte area Config.revokeChunk) r.imageCrc then
      { d with commit := some r, revoked := true }
    else if st.chunkErased area Config.revokeChunk then { d with commit := some r, revoked := false }
    else d.damaged

/-- What the scan makes of an area's directory record (R168). -/
def Store.scanDir (st : Store) (area : Fin 8) : Dir :=
  let d := st.dir area
  if d.marker ≠ .none then { d.damaged with marker := .none }
  else if d.st = .valid then st.scanValid area
  else d

/-- The scan examines the first `n` areas in ascending order (R168). An area's record depends on its own
bytes and record alone. -/
def Store.scan (st : Store) (n : Nat) : Store :=
  { st with dirs := Vector.ofFn fun i => if i.val < n then st.scanDir i else st.dir i }

/-- The last area has been examined: the block opens and POWER_UP joins the queue (R148, R168). -/
def State.scanDone (s : State) (cause : ResetCause) : State :=
  let store := { s.store.scan 8 with op := none }
  State.report { s with store := store, reports := { s.reports with isOpen := true } }
    (.powerUp cause (store.dirs.toList.map Dir.st))

/-! Interruption (R150, R167). -/

/-- An operation cut short by a cold reset leaves its bytes as far as it had gone: `n` bytes of a write,
`n` chunks of an erase, `n` areas of a scan (R150, R167; assumption log 16). -/
def Store.interrupted (st : Store) (n : Nat) : Store :=
  match st.op with
  | some (.erase a _) => st.eraseChunks a (min n 64)
  | some (.write a _ chunk data) => st.program a chunk (data.take n)
  | some (.commit a _ _ _ _ (some r)) => st.program a Config.commitChunk ((commitRecordBytes r).take n)
  | some (.commit _ _ _ _ _ none) => st
  | some (.revoke a _) => st.program a Config.revokeChunk ((st.revokeBytes a).take n)
  | some (.scan _) => st.scan n
  | none => st

/-- The store as a reset leaves it: areas and directory kept, the scan begun (R167, R168). -/
def Store.restarted (st : Store) (cause : ResetCause) : Store :=
  { st with engine := .scanning, op := some (.scan cause) }

end Sys2Proof.Machine
end

