-- ==== Sys2Proof/Machine/Resets.lean ====
section
/-! DEFINITION. The general requests of the link and REPORT_CONFIG, and the resets (spec 06, 08). -/

namespace Sys2Proof.Machine

/-- PING: the echo of its payload, with no status (R123). -/
def opPing (data : List Byte) (s : State) : State × List Byte := (s, data)

/-- IDENTIFY (R124). -/
def opIdentify (s : State) : State × List Byte :=
  answerOk (be16 Config.partCode ++ [Config.revision, 48#8, 2#8, b8 Config.queueCapacity, 8#8] ++
    be16 (BitVec.ofNat 16 Config.areaBytes) ++ be32 (rateBits s.link.rate)) s

/-- A channel's part of STATUS (R125). -/
def statusChannel (ch : Channel) : List Byte :=
  [chanStateCode ch.st, b8 ch.queue.length, gateStateCode ch.gate.st]

/-- STATUS (R125). -/
def opStatus (s : State) : State × List Byte :=
  answerOk (statusChannel s.chA ++ statusChannel s.chB ++
    [armCode s.epoch.arm, engineCode s.store.engine, b8 s.reports.queue.length] ++
    be16 (BitVec.ofNat 16 s.reports.lost)) s

/-- REPORT_CONFIG (R147). -/
def opReportConfig (mask : BitVec 16) (s : State) : State × List Byte :=
  if mask &&& ~~~Config.fullMask = 0#16 then
    answerOk (be16 mask) { s with reports := { s.reports with mask := mask } }
  else refuse .badValue s

/-- Every pin count falls to 0 and every reserved mark is cleared (R13, R126; assumption log 36). -/
def State.unpinSlots (s : State) : State :=
  { s with slots := Vector.ofFn fun i => { s.slot i with pins := 0, reserved := false } }

/-- The CHANNELS reset of every block (R126). The reports of a cancelled load come first, whichever channel it
was on, then channel A's, then channel B's (assumption log 22). -/
def State.resetChannels (s : State) : State :=
  ((s.cancelLoad.resetChannel .A).resetChannel .B).unpinSlots

/-- RESET with scope CHANNELS (R126). -/
def opResetChannels (s : State) : State × List Byte := answerOk [] s.resetChannels

/-- The engine states in which RESET FULL is refused (R127). -/
def EngineState.refusesReset : EngineState → Bool
  | .idle => false
  | .reading => false
  | _ => true

/-- RESET with scope FULL: taken, it makes the receiver deaf (R127, R128). -/
def opResetFull (s : State) : State × List Byte :=
  if s.store.engine.refusesReset then refuse .storeBusy s
  else answerOk [] { s with link := { s.link with deaf := true } }

/-- RESET by the scope byte of its frame (R126, R133). -/
def opResetScope (scope : Byte) (s : State) : State × List Byte :=
  if scope = 1#8 then opResetChannels s
  else if scope = 2#8 then opResetFull s
  else refuse .badValue s

/-! Cold and FULL reset (R129; Tables 1-5, 1-8, 2-6, 3-9, 4-4, 5-6, 6-7, 8-2, 9-8, 10-3). -/

/-- Every block at its reset value, around what a reset keeps: the store's areas and directory (R167),
the ports and the commands that wait. -/
def State.restart (s : State) (store : Store) (straps : Straps) (cause : ResetCause) (ports : Ports) :
    State :=
  { slots := Vector.replicate 48 Slot.reset, epoch := Epoch.reset, chA := Channel.reset,
    chB := Channel.reset, gateLine := false, gatePin := false, ports := ports,
    reports := ReportBlock.reset, link := Link.reset (strapRate straps), store := store.restarted cause,
    loader := Loader.reset, pending := s.pending }

/-- The reset of a RESET FULL (R127). From its period the ports carry 0, unless SCLK has stopped and the
samples of the last period have been driven (R50, R109; assumption log 9). -/
def State.fullReset (s : State) (straps : Straps) (sclkStopped : Bool) : State :=
  let u := s.noteClock sclkStopped
  (u.restart u.store straps .request u.ports).drivePorts

/-- A cold reset (R129, R167): both ports drive 0, and DSTRB goes on pulsing in each sample period in which
the reset is in effect (R109; assumption log 16). -/
def State.coldReset (s : State) (straps : Straps) (span : ColdSpan) : State :=
  s.restart (s.store.interrupted span.progress) straps .cold
    (Ports.reset (s.ports.strobes + span.periods))

end Sys2Proof.Machine
end

