-- ==== Sys2Proof/Machine/Requests.lean ====
section
/-! DEFINITION. The requests of the host: which owner executes which kind (Table 6-4), a request frame
as a whole, and the meaning of each request row. -/

namespace Sys2Proof.Machine

/-- The outcome of a command. -/
abbrev Result := Host.Outcome State Fault Refusal

/-- The bytes of a payload from an offset on. -/
def payloadFrom (p : List Byte) (i : Nat) : List Byte := p.drop i

/-- Dispatch (R115, Table 6-4): the owner's operation on a payload as it came (Table 7-7). -/
def ownerOf (k : Kind) (p : List Byte) (seq : Byte) (wp : Bool) : State → State × List Byte :=
  let b := byteAt p
  match k with
  | .ping => opPing p
  | .identify => opIdentify
  | .status => opStatus
  | .reset => opResetScope (b 0)
  | .slotSet => opSlotSet (b 0) (u32At b 1) (u16At b 5) (payloadFrom p 8)
  | .slotClear => opSlotClear (b 0)
  | .slotGet => opSlotGet (b 0)
  | .epoch => opEpochMode (b 0)
  | .epochGet => opEpochGet
  | .hopAppend => opHopAppend (b 0) (b 1) (payloadFrom p 2)
  | .hopFlush => opHopFlush (b 0)
  | .queueGet => opQueueGet (b 0) (b 1) (b 2)
  | .start => opStart (b 0)
  | .stop => opStopMode (b 0) (b 1)
  | .channelConfig => opChannelConfig (b 0) (b 1) (b 2) (b 3) (u16At b 4) (b 6) (u24At b 7)
  | .channelGet => opChannelGet (b 0)
  | .gate => opGateAction (b 0) (b 1)
  | .reportConfig => opReportConfig (u16At b 0)
  | .storeErase => opStoreErase (b 0) seq wp
  | .storeWrite => opStoreWrite (b 0) (b 1) (payloadFrom p 2) seq wp
  | .storeCommit => opStoreCommit (b 0) (b 1) (b 2) (b 3) seq wp
  | .storeRevoke => opStoreRevoke (b 0) seq wp
  | .storeRead => opStoreRead (b 0) (u16At b 1) (b 3)
  | .storeBlank => opStoreBlank (b 0)
  | .storeDigest => opStoreDigest (b 0) (b 1) (b 2)
  | .storeInfo => opStoreInfo
  | .load => opLoad (b 0) (b 1) (b 2) seq

/-- An accepted frame of a request's kind (R115). -/
def State.acceptKind (s : State) (k : Kind) (seq : Byte) (payload : List Byte)
    (op : State → State × List Byte) : State :=
  (s.acceptFrame (kindCode k) seq payload (answer k seq payload op)).finish

/-- An accepted frame of a kind that is no request's (R116). -/
def State.acceptUnknown (s : State) (kind seq : Byte) (payload : List Byte) : State :=
  (s.acceptFrame kind seq payload (answerUnknown kind seq)).finish

/-- An accepted frame as it came off the line (R111, R115). -/
def State.acceptBytes (s : State) (kind seq : Byte) (payload : List Byte) (wp : Bool) : State :=
  match kindOf kind with
  | some k => s.acceptKind k seq payload (ownerOf k payload seq wp)
  | none => s.acceptUnknown kind seq payload

/-- The moment a whole frame is accepted: the receiver is back in HUNT (R111), and with SCLK stopped every
event of the last period has been taken (R50; assumption log 9). -/
def State.frameEnds (s : State) (pins : Pins) : State := s.hunt.noteClock pins.sclkStopped

/-- A request frame of the host, from its acceptance to the arbiter's choice (R115, R117). A deaf
receiver takes none (R128). `payload` and `op` are the row's own fields; a raw frame has its own payload
and the owner's reading of it (assumption log 6). -/
def State.request (s : State) (r : Req) (k : Kind) (payload : List Byte)
    (op : State → State × List Byte) : State :=
  if s.link.deaf then s
  else match r.raw with
    | none => (s.frameEnds r.pins).acceptKind k r.seq payload op
    | some p => (s.frameEnds r.pins).acceptKind k r.seq p (ownerOf k p r.seq r.pins.wp)

/-! The payloads of the longer requests (Table 7-7). -/

/-- SLOT_SET's payload; the label length byte is the label's length. -/
def slotSetPayload (index : Byte) (word : BitVec 32) (offset : BitVec 16) (label : List Byte) :
    List Byte :=
  index :: be32 word ++ be16 offset ++ b8 label.length :: label

/-- CHANNEL_CONFIG's payload. -/
def channelConfigPayload (channel policy cycle edge : Byte) (ramp : BitVec 16) (follow : Byte)
    (pairTimeout : BitVec 24) : List Byte :=
  [channel, policy, cycle, edge] ++ be16 ramp ++ follow :: be24 pairTimeout

/-! The meanings. -/

/-- PING (R123). -/
def execPing (r : Req) (data : List Byte) (s : State) : Result :=
  .next (s.request r .ping data (opPing data))

/-- IDENTIFY (R124). -/
def execIdentify (r : Req) (s : State) : Result := .next (s.request r .identify [] opIdentify)

/-- STATUS (R125). -/
def execStatus (r : Req) (s : State) : Result := .next (s.request r .status [] opStatus)

/-- RESET CHANNELS (R126). -/
def execResetChannels (r : Req) (s : State) : Result := .next (s.request r .reset [1#8] opResetChannels)

/-- RESET FULL (R127). -/
def execResetFull (r : Req) (s : State) : Result := .next (s.request r .reset [2#8] opResetFull)

/-- SLOT_SET (R8). -/
def execSlotSet (r : Req) (index : Byte) (word : BitVec 32) (offset : BitVec 16) (label : List Byte)
    (s : State) : Result :=
  .next (s.request r .slotSet (slotSetPayload index word offset label) (opSlotSet index word offset label))

/-- SLOT_CLEAR (R10). -/
def execSlotClear (r : Req) (index : Byte) (s : State) : Result :=
  .next (s.request r .slotClear [index] (opSlotClear index))

/-- SLOT_GET (R11). -/
def execSlotGet (r : Req) (index : Byte) (s : State) : Result :=
  .next (s.request r .slotGet [index] (opSlotGet index))

/-- EPOCH NOW (R19). -/
def execEpochNow (r : Req) (s : State) : Result := .next (s.request r .epoch [0#8] opEpochNow)

/-- EPOCH ARM_ONCE (R19). -/
def execEpochArmOnce (r : Req) (s : State) : Result :=
  .next (s.request r .epoch [1#8] (opEpochArm .once))

/-- EPOCH ARM_EVERY (R19). -/
def execEpochArmEvery (r : Req) (s : State) : Result :=
  .next (s.request r .epoch [2#8] (opEpochArm .every))

/-- EPOCH DISARM (R19). -/
def execEpochDisarm (r : Req) (s : State) : Result :=
  .next (s.request r .epoch [3#8] (opEpochArm .disarmed))

/-- EPOCH_GET (R20). -/
def execEpochGet (r : Req) (s : State) : Result := .next (s.request r .epochGet [] opEpochGet)

/-- HOP_APPEND (R26). -/
def execHopAppend (r : Req) (channel count : Byte) (entries : List Byte) (s : State) : Result :=
  .next (s.request r .hopAppend (channel :: count :: entries) (opHopAppend channel count entries))

/-- HOP_FLUSH (R33). -/
def execHopFlush (r : Req) (channel : Byte) (s : State) : Result :=
  .next (s.request r .hopFlush [channel] (opHopFlush channel))

/-- QUEUE_GET (R37). -/
def execQueueGet (r : Req) (channel first count : Byte) (s : State) : Result :=
  .next (s.request r .queueGet [channel, first, count] (opQueueGet channel first count))

/-- START (R66). -/
def execStart (r : Req) (channel : Byte) (s : State) : Result :=
  .next (s.request r .start [channel] (opStart channel))

/-- STOP AT_END (R67). -/
def execStopAtEnd (r : Req) (channel : Byte) (s : State) : Result :=
  .next (s.request r .stop [channel, 0#8] (opStop channel false))

/-- STOP NOW (R67). -/
def execStopNow (r : Req) (channel : Byte) (s : State) : Result :=
  .next (s.request r .stop [channel, 1#8] (opStop channel true))

/-- CHANNEL_CONFIG (R71). -/
def execChannelConfig (r : Req) (channel policy cycle edge : Byte) (ramp : BitVec 16) (follow : Byte)
    (pairTimeout : BitVec 24) (s : State) : Result :=
  .next (s.request r .channelConfig
    (channelConfigPayload channel policy cycle edge ramp follow pairTimeout)
    (opChannelConfig channel policy cycle edge ramp follow pairTimeout))

/-- CHANNEL_GET (R72). -/
def execChannelGet (r : Req) (channel : Byte) (s : State) : Result :=
  .next (s.request r .channelGet [channel] (opChannelGet channel))

/-- GATE HOLD (R100). -/
def execGateHold (r : Req) (channel : Byte) (s : State) : Result :=
  .next (s.request r .gate [channel, 0#8] (opGate channel true))

/-- GATE RELEASE (R100). -/
def execGateRelease (r : Req) (channel : Byte) (s : State) : Result :=
  .next (s.request r .gate [channel, 1#8] (opGate channel false))

/-- REPORT_CONFIG (R147). -/
def execReportConfig (r : Req) (mask : BitVec 16) (s : State) : Result :=
  .next (s.request r .reportConfig (be16 mask) (opReportConfig mask))

/-- STORE_ERASE (R158). -/
def execStoreErase (r : Req) (area : Byte) (s : State) : Result :=
  .next (s.request r .storeErase [area] (opStoreErase area r.seq r.pins.wp))

/-- STORE_WRITE (R159). -/
def execStoreWrite (r : Req) (area chunk : Byte) (data : List Byte) (s : State) : Result :=
  .next (s.request r .storeWrite (area :: chunk :: data) (opStoreWrite area chunk data r.seq r.pins.wp))

/-- STORE_COMMIT (R160). -/
def execStoreCommit (r : Req) (area autostart channel startAfter : Byte) (s : State) : Result :=
  .next (s.request r .storeCommit [area, autostart, channel, startAfter]
    (opStoreCommit area autostart channel startAfter r.seq r.pins.wp))

/-- STORE_REVOKE (R162). -/
def execStoreRevoke (r : Req) (area : Byte) (s : State) : Result :=
  .next (s.request r .storeRevoke [area] (opStoreRevoke area r.seq r.pins.wp))

/-- STORE_READ (R163). -/
def execStoreRead (r : Req) (area : Byte) (offset : BitVec 16) (length : Byte) (s : State) : Result :=
  .next (s.request r .storeRead (area :: be16 offset ++ [length]) (opStoreRead area offset length))

/-- STORE_BLANK (R164). -/
def execStoreBlank (r : Req) (area : Byte) (s : State) : Result :=
  .next (s.request r .storeBlank [area] (opStoreBlank area))

/-- STORE_DIGEST (R165). -/
def execStoreDigest (r : Req) (area first last : Byte) (s : State) : Result :=
  .next (s.request r .storeDigest [area, first, last] (opStoreDigest area first last))

/-- STORE_INFO (R166). -/
def execStoreInfo (r : Req) (s : State) : Result := .next (s.request r .storeInfo [] opStoreInfo)

/-- LOAD (R170, R171). -/
def execLoad (r : Req) (area channel startFlag : Byte) (s : State) : Result :=
  .next (s.request r .load [area, channel, startFlag] (opLoad area channel startFlag r.seq))

/-- UNKNOWN_KIND (R116). -/
def execUnknownKind (seq : Byte) (pins : Pins) (kind : Byte) (payload : List Byte) (s : State) : Result :=
  .next (if s.link.deaf then s else (s.frameEnds pins).acceptUnknown kind seq payload)

end Sys2Proof.Machine
end

