-- ==== Sys2Proof/Machine/Events.lean ====
section
/-! DEFINITION. The meanings of the event rows: the receiver, the transmitter, autostart, the resets, the
store's completions, and the events of the sample period. -/

namespace Sys2Proof.Machine

/-! The receiver (R111 to R114, R128). -/

/-- LENGTH_FAULT (R112): a length byte above 240. -/
def execLengthFault (length : Byte) (s : State) : Result :=
  .next (if s.link.deaf || decide (length.toNat ≤ Config.maxPayload) then s else s.receiverFault .length)

/-- CHECK_FAULT (R111): a whole frame whose check value differs from its CRC. -/
def execCheckFault (kind seq : Byte) (payload : List Byte) (check : BitVec 16) (s : State) : Result :=
  .next (if s.link.deaf || check == frameCheck kind seq payload then s else s.receiverFault .check)

/-- INTERBYTE_TIMEOUT (R113): there is no timeout in HUNT. -/
def execInterbyteTimeout (s : State) : Result :=
  .next (if s.link.deaf || s.link.rx == .hunt then s else s.receiverFault .timeout)

/-- BREAK (R114). -/
def execRxBreak (s : State) : Result := .next (if s.link.deaf then s else s.receiverFault .break_)

/-- The receiver moves to a state, with the bytes kept so far (R111). -/
def State.receive (s : State) (rx : RxState) (buf : List Byte) : State :=
  { s with link := { s.link with rx := rx, buf := buf } }

/-- The last check byte (R111): the kept bytes are length, kind, sequence, payload and the check. -/
def State.checkFrame (s : State) (buf : List Byte) (pins : Pins) : State :=
  let body := buf.take (buf.length - 2)
  let check := u16At (byteAt buf) (buf.length - 2)
  if crc16 body = check then
    (s.frameEnds pins).acceptBytes (byteAt body 1) (byteAt body 2) (body.drop 3) pins.wp
  else s.receiverFault .check

/-- A byte moves the receiver as Table 6-2 gives (R111, R112). -/
def State.takeByte (s : State) (b : Byte) (pins : Pins) : State :=
  let buf := s.link.buf ++ [b]
  match s.link.rx with
  | .hunt => if b = Config.leadByte then s.receive .length [] else s
  | .length => if Config.maxPayload < b.toNat then s.receiverFault .length else s.receive .kind buf
  | .kind => s.receive .seq buf
  | .seq => s.receive (if byteAt buf 0 = 0#8 then .checkHi else .payload) buf
  | .payload => s.receive (if buf.length = 3 + (byteAt buf 0).toNat then .checkHi else .payload) buf
  | .checkHi => s.receive .checkLo buf
  | .checkLo => s.checkFrame buf pins

/-- BYTE_RECEIVED (R111, R113, R128): a character whose stop bit is low is no byte. -/
def execByteReceived (stopHigh : Bool) (byte : Byte) (pins : Pins) (s : State) : Result :=
  .next (if s.link.deaf || !stopHigh then s else s.takeByte byte pins)

/-! The transmitter and autostart. -/

/-- TRANSMISSION_END (R122, R120). -/
def execTransmissionEnd (s : State) : Result := .next s.transmissionEnd

/-- AUTOSTART_STEP (R182). -/
def execAutostartStep (s : State) : Result :=
  .next (match s.nextAuto with
    | some a => s.takeIf s.autoDue fun s => s.autoStep a
    | none => s)

/-! The resets. -/

/-- FULL_RESET (R127). -/
def execFullReset (straps : Straps) (sclkStopped : Bool) (s : State) : Result :=
  .next (if s.link.fullResetDue then s.fullReset straps sclkStopped else s)

/-- COLD_RESET (R129). -/
def execColdReset (straps : Straps) (span : ColdSpan) (s : State) : Result :=
  .next (s.coldReset straps span)

/-! The completions of the store and the loader. -/

/-- SCAN_COMPLETE (R168). -/
def execScanComplete (s : State) : Result :=
  .next (match s.store.op with
    | some (.scan cause) => (s.scanDone cause).finish
    | _ => s)

/-- ERASE_COMPLETE (R158). -/
def execEraseComplete (s : State) : Result :=
  .next (match s.store.op with
    | some (.erase area seq) => (s.eraseDone area seq).finish
    | _ => s)

/-- WRITE_COMPLETE (R159). -/
def execWriteComplete (s : State) : Result :=
  .next (match s.store.op with
    | some (.write area seq chunk data) => (s.writeDone area seq chunk data).finish
    | _ => s)

/-- VALIDATION (R161): the end of the validation phase. -/
def execValidation (s : State) : Result :=
  .next (match s.store.op with
    | some (.commit area seq autostart chan startAfter none) =>
      (s.validate area seq autostart chan startAfter).finish
    | _ => s)

/-- COMMIT_COMPLETE (R160): the end of the record phase. -/
def execCommitComplete (s : State) : Result :=
  .next (match s.store.op with
    | some (.commit area seq _ _ _ (some r)) => (s.commitDone area seq r).finish
    | _ => s)

/-- REVOKE_COMPLETE (R162). -/
def execRevokeComplete (s : State) : Result :=
  .next (match s.store.op with
    | some (.revoke area seq) => (s.revokeDone area seq).finish
    | _ => s)

/-- LOAD_READ_COMPLETE (R173). -/
def execLoadReadComplete (sclkStopped : Bool) (s : State) : Result :=
  .next (match s.loader.ctx with
    | some k => ((s.noteClock sclkStopped).completeLoad k).finish
    | none => s)

/-- An offset of a byte that exists. -/
def offsetExists (p : Nat × Byte) : Bool := decide (p.1 < Config.areaBytes)

/-- Bytes of an area take other values (R150). -/
def State.lose (s : State) (area : Nat) (changes : List (Nat × Byte)) : State :=
  { s with store := { s.store with
      mem := changes.foldl (fun m p => memWrite m (Config.areaBytes * area + p.1) p.2) s.store.mem } }

/-- RETENTION_LOSS (R150); a byte that does not exist is a fault (assumption log 24). -/
def execRetentionLoss (area : Nat) (changes : List (Nat × Byte)) (s : State) : Result :=
  if area < 8 ∧ changes.all offsetExists = true then .next (s.lose area changes)
  else .fault .noSuchByte

/-! The events of the sample period. -/

/-- DWELL_EXPIRY (R54). -/
def execDwellExpiry (c : Chan) (s : State) : Result := .next (s.doExpiry c)

/-- PAIR_TIMER_EXPIRY (R82). -/
def execPairTimerExpiry (c : Chan) (s : State) : Result := .next (s.doPairTimer c)

/-- GATE_ARRIVAL (R94). -/
def execGateArrival (c : Chan) (s : State) : Result := .next (s.doArrival c)

/-- TRIGGER_EDGE (R55). -/
def execTriggerEdge (c : Chan) (s : State) : Result := .next (s.doEdge c)

/-- TIME_ARRIVAL (R57). -/
def execTimeArrival (c : Chan) (s : State) : Result := .next (s.doTime c)

/-- SYNC_EDGE (R18). -/
def execSyncEdge (s : State) : Result := .next s.doSyncEdge

/-- WRAP (R15): its report is made as the period ends, if no epoch event of the period comes (assumption log
11). -/
def execWrap (s : State) : Result := .next s.doWrap

/-- GATE_LINE_CHANGE (R101). -/
def execGateLineChange (s : State) : Result := .next s.doGateLine

/-- SAMPLE_PERIOD (R14). -/
def execSamplePeriod (lines : Lines) (s : State) : Result := .next (s.endPeriod.advance lines)

end Sys2Proof.Machine
end

