-- ==== Sys2Proof/Machine/Dispatch.lean ====
section
/-! DEFINITION. One meaning for each command. -/

namespace Sys2Proof.Machine

/-- The effect of a command on everything but the queue. -/
def exec (i : Instr) (s : State) : Host.Outcome State Fault Refusal :=
  match i with
  | .ping r data => Sys2Proof.Machine.execPing r data s
  | .identify r => Sys2Proof.Machine.execIdentify r s
  | .status r => Sys2Proof.Machine.execStatus r s
  | .resetChannels r => Sys2Proof.Machine.execResetChannels r s
  | .resetFull r => Sys2Proof.Machine.execResetFull r s
  | .slotSet r index word offset label => Sys2Proof.Machine.execSlotSet r index word offset label s
  | .slotClear r index => Sys2Proof.Machine.execSlotClear r index s
  | .slotGet r index => Sys2Proof.Machine.execSlotGet r index s
  | .epochNow r => Sys2Proof.Machine.execEpochNow r s
  | .epochArmOnce r => Sys2Proof.Machine.execEpochArmOnce r s
  | .epochArmEvery r => Sys2Proof.Machine.execEpochArmEvery r s
  | .epochDisarm r => Sys2Proof.Machine.execEpochDisarm r s
  | .epochGet r => Sys2Proof.Machine.execEpochGet r s
  | .hopAppend r channel count entries => Sys2Proof.Machine.execHopAppend r channel count entries s
  | .hopFlush r channel => Sys2Proof.Machine.execHopFlush r channel s
  | .queueGet r channel first count => Sys2Proof.Machine.execQueueGet r channel first count s
  | .start r channel => Sys2Proof.Machine.execStart r channel s
  | .stopAtEnd r channel => Sys2Proof.Machine.execStopAtEnd r channel s
  | .stopNow r channel => Sys2Proof.Machine.execStopNow r channel s
  | .channelConfig r channel policy cycle edge ramp follow pairTimeout => Sys2Proof.Machine.execChannelConfig r channel policy cycle edge ramp follow pairTimeout s
  | .channelGet r channel => Sys2Proof.Machine.execChannelGet r channel s
  | .gateHold r channel => Sys2Proof.Machine.execGateHold r channel s
  | .gateRelease r channel => Sys2Proof.Machine.execGateRelease r channel s
  | .reportConfig r mask => Sys2Proof.Machine.execReportConfig r mask s
  | .storeErase r area => Sys2Proof.Machine.execStoreErase r area s
  | .storeWrite r area chunk data => Sys2Proof.Machine.execStoreWrite r area chunk data s
  | .storeCommit r area autostart channel startAfter => Sys2Proof.Machine.execStoreCommit r area autostart channel startAfter s
  | .storeRevoke r area => Sys2Proof.Machine.execStoreRevoke r area s
  | .storeRead r area offset length => Sys2Proof.Machine.execStoreRead r area offset length s
  | .storeBlank r area => Sys2Proof.Machine.execStoreBlank r area s
  | .storeDigest r area first last => Sys2Proof.Machine.execStoreDigest r area first last s
  | .storeInfo r => Sys2Proof.Machine.execStoreInfo r s
  | .load r area channel startFlag => Sys2Proof.Machine.execLoad r area channel startFlag s
  | .unknownKind seq pins kind payload => Sys2Proof.Machine.execUnknownKind seq pins kind payload s
  | .lengthFault length => Sys2Proof.Machine.execLengthFault length s
  | .checkFault kind seq payload check => Sys2Proof.Machine.execCheckFault kind seq payload check s
  | .interbyteTimeout => Sys2Proof.Machine.execInterbyteTimeout s
  | .rxBreak => Sys2Proof.Machine.execRxBreak s
  | .transmissionEnd => Sys2Proof.Machine.execTransmissionEnd s
  | .autostartStep => Sys2Proof.Machine.execAutostartStep s
  | .fullReset straps sclkStopped => Sys2Proof.Machine.execFullReset straps sclkStopped s
  | .coldReset straps span => Sys2Proof.Machine.execColdReset straps span s
  | .scanComplete => Sys2Proof.Machine.execScanComplete s
  | .eraseComplete => Sys2Proof.Machine.execEraseComplete s
  | .writeComplete => Sys2Proof.Machine.execWriteComplete s
  | .validation => Sys2Proof.Machine.execValidation s
  | .commitComplete => Sys2Proof.Machine.execCommitComplete s
  | .revokeComplete => Sys2Proof.Machine.execRevokeComplete s
  | .loadReadComplete sclkStopped => Sys2Proof.Machine.execLoadReadComplete sclkStopped s
  | .dwellExpiry c => Sys2Proof.Machine.execDwellExpiry c s
  | .pairTimerExpiry c => Sys2Proof.Machine.execPairTimerExpiry c s
  | .gateArrival c => Sys2Proof.Machine.execGateArrival c s
  | .triggerEdge c => Sys2Proof.Machine.execTriggerEdge c s
  | .timeArrival c => Sys2Proof.Machine.execTimeArrival c s
  | .syncEdge => Sys2Proof.Machine.execSyncEdge s
  | .wrap => Sys2Proof.Machine.execWrap s
  | .gateLineChange => Sys2Proof.Machine.execGateLineChange s
  | .samplePeriod lines => Sys2Proof.Machine.execSamplePeriod lines s
  | .byteReceived stopHigh byte pins => Sys2Proof.Machine.execByteReceived stopHigh byte pins s
  | .retentionLoss area changes => Sys2Proof.Machine.execRetentionLoss area changes s

end Sys2Proof.Machine
end

