-- ==== Sys2Proof/Safety.lean ====
section
/-! DEFINITION. What claims are stated in: safe outcomes, and the laws the spec says hold at every
moment. -/

namespace Sys2Proof.Machine

/-- The machine goes on. -/
def Safe (o : Host.Outcome State Fault Refusal) : Prop := ∃ s, o = .next s

/-! Requests. -/

/-- The machine takes this request frame as a new one and hands it to its owner: the receiver is not deaf
(R128), the payload fits its kind (R132), and in the state in which it is executed no pending or cached reply
answers it (R121) and a reply slot is free (R118). -/
def State.takes (s : State) (r : Req) (k : Kind) (payload : List Byte) : Prop :=
  s.link.deaf = false ∧ r.raw = none ∧ lengthFits k payload = true ∧
    (s.frameEnds r.pins).link.lookup r.seq (frameCheck (kindCode k) r.seq payload) = .fresh ∧
    (s.frameEnds r.pins).link.roomy = true

/-- The state after a request whose effect led to `s` has been answered with `body`: the reply is placed
and the arbiter chooses (R117, R122). -/
def State.replied (s : State) (r : Req) (k : Kind) (payload body : List Byte) : State :=
  (s.place (.reply { seq := r.seq, check := frameCheck (kindCode k) r.seq payload,
                     frame := mkFrame (replyKind k) r.seq body, full := s.link.deaf })).finish

/-- The request frame a request row stands for: its kind and the payload its fields make (Table 7-7). -/
def requestOf : Instr → Option (Req × Kind × List Byte)
  | .ping r data => some (r, .ping, data)
  | .identify r => some (r, .identify, [])
  | .status r => some (r, .status, [])
  | .resetChannels r => some (r, .reset, [1#8])
  | .resetFull r => some (r, .reset, [2#8])
  | .slotSet r index word offset label => some (r, .slotSet, slotSetPayload index word offset label)
  | .slotClear r index => some (r, .slotClear, [index])
  | .slotGet r index => some (r, .slotGet, [index])
  | .epochNow r => some (r, .epoch, [0#8])
  | .epochArmOnce r => some (r, .epoch, [1#8])
  | .epochArmEvery r => some (r, .epoch, [2#8])
  | .epochDisarm r => some (r, .epoch, [3#8])
  | .epochGet r => some (r, .epochGet, [])
  | .hopAppend r channel count entries => some (r, .hopAppend, channel :: count :: entries)
  | .hopFlush r channel => some (r, .hopFlush, [channel])
  | .queueGet r channel first count => some (r, .queueGet, [channel, first, count])
  | .start r channel => some (r, .start, [channel])
  | .stopAtEnd r channel => some (r, .stop, [channel, 0#8])
  | .stopNow r channel => some (r, .stop, [channel, 1#8])
  | .channelConfig r channel policy cycle edge ramp follow pairTimeout =>
    some (r, .channelConfig, channelConfigPayload channel policy cycle edge ramp follow pairTimeout)
  | .channelGet r channel => some (r, .channelGet, [channel])
  | .gateHold r channel => some (r, .gate, [channel, 0#8])
  | .gateRelease r channel => some (r, .gate, [channel, 1#8])
  | .reportConfig r mask => some (r, .reportConfig, be16 mask)
  | .storeErase r area => some (r, .storeErase, [area])
  | .storeWrite r area chunk data => some (r, .storeWrite, area :: chunk :: data)
  | .storeCommit r area autostart channel startAfter =>
    some (r, .storeCommit, [area, autostart, channel, startAfter])
  | .storeRevoke r area => some (r, .storeRevoke, [area])
  | .storeRead r area offset length => some (r, .storeRead, area :: be16 offset ++ [length])
  | .storeBlank r area => some (r, .storeBlank, [area])
  | .storeDigest r area first last => some (r, .storeDigest, [area, first, last])
  | .storeInfo r => some (r, .storeInfo, [])
  | .load r area channel startFlag => some (r, .load, [area, channel, startFlag])
  | .unknownKind .. => none
  | .lengthFault .. => none
  | .checkFault .. => none
  | .interbyteTimeout => none
  | .rxBreak => none
  | .transmissionEnd => none
  | .autostartStep => none
  | .fullReset .. => none
  | .coldReset .. => none
  | .scanComplete => none
  | .eraseComplete => none
  | .writeComplete => none
  | .validation => none
  | .commitComplete => none
  | .revokeComplete => none
  | .loadReadComplete .. => none
  | .dwellExpiry .. => none
  | .pairTimerExpiry .. => none
  | .gateArrival .. => none
  | .triggerEdge .. => none
  | .timeArrival .. => none
  | .syncEdge => none
  | .wrap => none
  | .gateLineChange => none
  | .samplePeriod .. => none
  | .byteReceived .. => none
  | .retentionLoss .. => none

/-- The frame a command stands for, with the pins, kind, sequence and payload of its acceptance: a request row with
its own payload or a raw one, and a frame of a kind that is no request's (R115, R116). -/
def frameOf : Instr → Option (Pins × Byte × Byte × List Byte)
  | .unknownKind seq pins kind payload =>
    if kindOf kind = none then some (pins, kind, seq, payload) else none
  | i => (requestOf i).map fun (r, k, payload) => (r.pins, kindCode k, r.seq, r.raw.getD payload)

/-- Every byte of every area reads the same in both stores. -/
def sameBytes (s t : State) : Prop := ∀ a, memRead s.store.mem a = memRead t.store.mem a

/-- Nothing of the present sample period is left to be taken (assumption log 8). -/
def State.quiet (s : State) : Prop :=
  s.epoch.syncDue = false ∧ s.epoch.wrapDue = false ∧ s.epoch.wrapHeld = false ∧ s.gatePin = s.gateLine ∧
    ∀ c, (s.chan c).gate.arrived = false ∧ (s.chan c).expiryDue = false ∧ (s.chan c).edgeDue = false ∧
      s.timeDue c = false ∧ (s.chan c).pairExpiryDue = false

/-- An entry whose fields are in range (R28). -/
def HopEntry.inRange (e : HopEntry) : Prop := e.dwell ≠ 0#24 ∧ e.amplitude.toNat ≤ 32767

/-- Runs commands one after another, up to the first that does not answer a next state. -/
def runAll : List Instr → State → Host.Outcome State Fault Refusal
  | [], s => .next s
  | i :: rest, s =>
    match exec i s with
    | .next t => runAll rest t
    | o => o

/-! The laws. -/

/-- A channel has a current hop exactly in these states (R44). -/
def ChanState.holdsHop : ChanState → Bool
  | .idle => false
  | .loading => false
  | .waiting => false
  | .dwell => true
  | .overstay => true
  | .switching => true
  | .ending _ => true

/-- The channel is in ENDING. -/
def ChanState.isEnding : ChanState → Bool
  | .ending _ => true
  | _ => false

/-- The gate's laws (R87): the hold set decides the direction, and the end states have their gains. -/
def Gate.lawful (g : Gate) : Bool :=
  match g.st with
  | .opened => g.hold.isEmpty && g.gain == Config.fullGain
  | .opening => g.hold.isEmpty && decide (g.gain ≤ Config.fullGain)
  | .closing => !g.hold.isEmpty && decide (g.gain ≤ Config.fullGain)
  | .closed => !g.hold.isEmpty && g.gain == 0

/-- The engine's reasons stand in the hold set exactly at their times, and a channel with no current hop
has a CLOSED gate (R89). -/
def Channel.reasonsLawful (ch : Channel) : Bool :=
  (ch.gate.hold.noHop == ch.cur.isNone) && (ch.gate.hold.blank == (ch.st == .switching)) &&
    (ch.gate.hold.ending == ch.st.isEnding) && (ch.cur.isSome || ch.gate.st == .closed)

/-- The hop engine's laws: a current hop exactly in the states that have one (R44), the dwell counter at
0 outside DWELL and ENDING (R53), stop-at-end in DWELL alone (R63, R67). -/
def Channel.engineLawful (ch : Channel) : Bool :=
  (ch.cur.isSome == ch.st.holdsHop) && (ch.st == .dwell || ch.st.isEnding || ch.dwell == 0) &&
    (!ch.stopAtEnd || ch.st == .dwell)

/-- The queue's laws: at most 64 entries, one place being kept for a hop that will rejoin in cycle mode
(R24, R29, R40); the current hop is offered as the head only in cycle mode, to a channel that waits on it
or switches to it (R38). -/
def Channel.queueLawful (ch : Channel) : Bool :=
  decide (ch.queue.length + (ch.cfg.cycle && ch.cur.isSome).toNat ≤ Config.queueCapacity) &&
    (!ch.selfHead || (ch.cfg.cycle && (ch.st == .overstay || ch.st == .switching)))

/-- The pair unit's laws: a ready channel waits on a PAIRED head, and only a ready channel's timer runs
(R74). -/
def Channel.pairLawful (ch : Channel) : Bool :=
  (!ch.ready || ((ch.st == .waiting || ch.st == .overstay || ch.st == .switching) &&
    (ch.offered.map HopEntry.trigger == some .paired))) &&
    (ch.timer.isNone || ch.ready)

/-- A gate without a ramp is never moving (R95). -/
def Channel.rampLawful (ch : Channel) : Bool :=
  ch.cfg.ramp != 0 || ch.gate.st == .opened || ch.gate.st == .closed

/-- Every law of one channel. -/
def Channel.lawful (ch : Channel) : Bool :=
  ch.gate.lawful && ch.reasonsLawful && ch.engineLawful && ch.queueLawful && ch.pairLawful &&
    ch.rampLawful

/-- The pin count of a slot equals the entries and current hops that name it, and a slot with pins is
LOADED (R5). -/
def State.pinsLawful (s : State) (i : Fin 48) : Bool :=
  (s.slot i).pins == s.chA.pinsOn i + s.chB.pinsOn i &&
    (decide ((s.slot i).pins = 0) || (s.slot i).tone.isSome)

/-- A channel is LOADING exactly while a load is in flight for it (R169). -/
def State.loadLawful (s : State) (c : Chan) : Bool :=
  ((s.chan c).st == .loading) == (s.loader.ctx.map LoadCtx.chan == some c)

/-- A slot is reserved exactly while a load is in flight whose area's commit record has it in its slot-use set
(R7). -/
def State.reservedLawful (s : State) (i : Fin 48) : Bool :=
  (s.slot i).reserved ==
    match s.loader.ctx with
    | none => false
    | some k => (((s.store.dir k.area).commit.map CommitRec.slotUse).getD 0#48).getLsbD i.val

/-- A gate holds LINE exactly while its channel follows the line and the last sample was high (R101,
R102). -/
def State.lineLawful (s : State) (c : Chan) : Bool :=
  (s.chan c).gate.hold.line == ((s.chan c).cfg.follow && s.gateLine)

/-- Whether a report is POWER_UP. -/
def isPowerUp (r : Report) : Bool :=
  match r.body with
  | .powerUp .. => true
  | _ => false

/-- Whether an operation is the scan. -/
def StoreOp.isScan : StoreOp → Bool
  | .scan _ => true
  | _ => false

/-- What holds the store engine: an operation in progress, a load in flight, a completion report or a
POWER_UP that waits (R144, R148, R155). -/
def State.engineHolders (s : State) : Nat :=
  s.store.op.isSome.toNat + s.loader.ctx.isSome.toNat + s.reports.completion.isSome.toNat +
    s.reports.queue.countP isPowerUp

/-- The store engine's law: one holder while it is not IDLE and none while it is (R155); the report block
is closed exactly during the scan, and empty then (R148). -/
def State.engineLawful (s : State) : Bool :=
  (s.engineHolders == (s.store.engine != .idle).toNat) &&
    (s.store.op.any StoreOp.isScan == !s.reports.isOpen) &&
    (s.reports.isOpen || s.reports.queue.isEmpty)

/-- The staging buffer is empty while no load is in flight (R169). -/
def State.stagingLawful (s : State) : Bool := s.loader.ctx.isSome || s.loader.staging.isEmpty

/-- The laws of the channels, the gates, the slot table, the loader and the store engine together; at
most one channel is ready (R84). -/
def State.lawful (s : State) : Bool :=
  s.chA.lawful && s.chB.lawful && !(s.chA.ready && s.chB.ready) &&
    (List.finRange 48).all s.pinsLawful && (List.finRange 48).all s.reservedLawful &&
    s.loadLawful .A && s.loadLawful .B && s.stagingLawful &&
    s.lineLawful .A && s.lineLawful .B && s.engineLawful

/-- A report of a class that has at most one waiting for each key (R140, R141). -/
def keyed (r : ReportBody) : Bool := reportClass r == .merge || reportClass r == .replace

/-- No two waiting reports of the MERGE and REPLACE classes have one kind and key (R140, R141). -/
def keysApart : List Report → Bool
  | [] => true
  | q :: rest => (!keyed q.body || !rest.any fun r => sameKey r.body q.body) && keysApart rest

/-- The note of the present period agrees with what waits: at most as many HOP_BEGINs (assumption log 10). -/
def ReportBlock.noteLawful (b : ReportBlock) : Bool := decide (b.begun ≤ b.queue.countP Report.isHopBegin)

/-- The report block's law: at most 16 ordinary reports (R138), one of each key (R140, R141), a lost count
up to 65,535 (R142), only the eight maskable kinds disabled (R147), and the note of the period. -/
def ReportBlock.lawful (b : ReportBlock) : Bool :=
  decide (b.queue.length ≤ Config.reportCapacity) && decide (b.lost ≤ 65535) && keysApart b.queue &&
    (b.mask &&& ~~~Config.fullMask == 0#16) && b.noteLawful

/-- The link's laws: at most four replies and one refusal wait (R118, R119), at most four cache entries
(R120). -/
def Link.lawful (l : Link) : Bool :=
  decide (l.waiting.countP Outgoing.isReply ≤ Config.window) &&
    decide (l.waiting.countP Outgoing.isRefusal ≤ 1) && decide (l.cache.length ≤ Config.cacheCapacity)

/-- No area has been erased more often than the limit allows (R154). -/
def Store.wearLawful (st : Store) : Bool :=
  st.dirs.toList.all fun d => decide (d.eraseCount ≤ Config.eraseLimit)

/-- The line is never free while something waits, but between the last character of a RESET FULL reply
and the reset (R122, R127). -/
def State.lineBusy (s : State) : Bool :=
  s.link.tx.isSome || s.link.fullResetDue ||
    (s.link.waiting.isEmpty && s.reports.completion.isNone && s.reports.queue.isEmpty)

/-! An epoch event. -/

/-- A HOP_BEGIN report with the count 0. -/
def atOrigin (q : Report) : Report :=
  match q.body with
  | .hopBegin c slot tag _ => { q with body := .hopBegin c slot tag 0#48 }
  | _ => q

/-- Everything an epoch event of a cause does (R14 to R17, R48, R49; assumption logs 10, 11): the count
becomes 0; an accumulator that holds the phase of a COHERENT switch of this period takes that phase at the
count 0, and every other stays; the HOP_BEGINs of this period that wait take the count 0; a wrap of this period
makes no report; and the EPOCH_EVENT report is made. -/
def EpochTaken (s t : State) (cause : EpochCause) : Prop :=
  t.epoch = { s.epoch with count := 0#48, wrapDue := false, wrapHeld := false } ∧
  (∀ c, t.chan c = match (s.chan c).coherentNow with
    | none => s.chan c
    | some tone => { s.chan c with acc := BitVec.ofNat 32 (tone.offset.toNat * 65536) }) ∧
  t.slots = s.slots ∧ t.store = s.store ∧ t.loader = s.loader ∧ t.link = s.link ∧
  t.gateLine = s.gateLine ∧ t.gatePin = s.gatePin ∧ t.ports = s.ports ∧ t.pending = s.pending ∧
  ∀ before after, s.reports.queue = before ++ after →
    after.countP Report.isHopBegin = s.reports.begun →
    t.reports =
      ReportBlock.make { s.reports with queue := before ++ after.map atOrigin } (.epochEvent cause)

/-! The moves of a channel. Each is said once, as a relation between the state before and the state after. -/

/-- What an event that leaves the hold set `h` makes of a gate (R88, R92, R93, R95, R96): it moves only when the
hold set becomes empty or stops being so, at once without a ramp or where it stands at its target already. -/
def GateLeft (ramp : Nat) (g : Gate) (h : HoldSet) (g' : Gate) : Prop :=
  g'.hold = h ∧ g'.periodGain = min g.periodGain g'.gain ∧
  (g.hold.isEmpty = h.isEmpty → g'.st = g.st ∧ g'.gain = g.gain) ∧
  (g.hold.isEmpty = true → h.isEmpty = false →
    g'.st = (if ramp = 0 ∨ g.gain = 0 then .closed else .closing) ∧
    g'.gain = (if ramp = 0 then 0 else g.gain)) ∧
  (g.hold.isEmpty = false → h.isEmpty = true →
    g'.st = (if ramp = 0 ∨ g.gain = 1024 then .opened else .opening) ∧
    g'.gain = (if ramp = 0 then 1024 else g.gain))

/-- A channel becomes `x` and its gate is left under `h`; a change of channel state and then one of gate state
make their reports (R45, R103; their order is assumption log 22), and nothing else changes. How the gate moves is
said of a gate that keeps its laws. -/
def Moved (s t : State) (c : Chan) (x : Channel) (h : HoldSet) : Prop :=
  let old := s.chan c
  ∃ g, g.hold = h ∧ (old.gate.lawful = true → GateLeft old.cfg.ramp old.gate h g) ∧
    t = { s.setChan c { x with gate := g } with
      reports :=
        let r := if x.st = old.st then s.reports else s.reports.make (.channelState c x.st)
        if g.st = old.gate.st then r else r.make (.gateState c g.st h) }

/-- The channel offers `hop` as its head, with `rest` behind it: the entry at position 0, or its own current hop
before the whole queue (R25, R38). -/
def Channel.offers (ch : Channel) (hop : HopEntry) (rest : List HopEntry) : Prop :=
  (ch.selfHead = false ∧ ch.queue = hop :: rest) ∨
    (ch.selfHead = true ∧ ch.cur = some hop ∧ ch.queue = rest)

/-- Everything a hop start of `hop` on a channel does, `rest` being the entries that stood behind it: the
queue with the exchange of cycle mode (the retake of the own current hop leaves it), the retired hop's pin, the
dwell, the accumulator by mode, the gate, and the reports (R5, R25, R38, R45, R46, R48, R49, R80, R103). -/
def Started (s t : State) (c : Chan) (hop : HopEntry) (rest : List HopEntry) : Prop :=
  let x := s.chan c
  let y := t.chan c
  y.st = .dwell ∧ y.cur = some hop ∧
  y.queue = (if x.selfHead = false ∧ x.cfg.cycle = true then rest ++ x.cur.toList else rest) ∧
  y.dwell = hop.dwell.toNat ∧ y.ready = false ∧ y.timer = none ∧ y.selfHead = false ∧
  y.stopAtEnd = x.stopAtEnd ∧ y.cfg = x.cfg ∧ y.trigLevel = x.trigLevel ∧ y.edgeDue = x.edgeDue ∧
  y.coherentNow = (match hop.mode with
    | .continuous => x.coherentNow
    | .restart => none
    | .coherent => some (s.toneOf hop.slot)) ∧
  y.acc = (match hop.mode with
    | .continuous => x.acc
    | .restart => BitVec.ofNat 32 ((s.toneOf hop.slot).offset.toNat * 65536)
    | .coherent => BitVec.ofNat 32 ((s.toneOf hop.slot).offset.toNat * 65536 +
        (s.toneOf hop.slot).word.toNat * s.epoch.count.toNat)) ∧
  y.gate.hold = { x.gate.hold with noHop := false, blank := false } ∧
  (x.gate.lawful = true →
    GateLeft x.cfg.ramp x.gate { x.gate.hold with noHop := false, blank := false } y.gate) ∧
  t.chan (chanOther c) = s.chan (chanOther c) ∧
  (∀ i, t.slot i = if x.cfg.cycle = false ∧ x.cur.map HopEntry.slot = some i
    then { s.slot i with pins := (s.slot i).pins - 1 } else s.slot i) ∧
  t.epoch = s.epoch ∧ t.store = s.store ∧ t.loader = s.loader ∧ t.link = s.link ∧
  t.gateLine = s.gateLine ∧ t.gatePin = s.gatePin ∧ t.ports = s.ports ∧ t.pending = s.pending ∧
  t.reports =
    (let r1 := if y.gate.st = x.gate.st then s.reports
      else s.reports.make (.gateState c y.gate.st y.gate.hold)
     let r2 := if x.st = .dwell then r1 else r1.make (.channelState c .dwell)
     if hop.report then r2.make (.hopBegin c hop.slot hop.tag s.epoch.count) else r2)

/-- A channel becomes ready (R75, R78, R81): nothing where it is ready already; else its timer starts, if its
pair timeout is above 0, and with a ready partner both heads start, channel A's first (assumption log 22), an
epoch event of the period being taken first (R14; assumption log 10). -/
def Readied (s t : State) (c : Chan) : Prop :=
  let x := s.chan c
  let w := s.setChan c
    { x with ready := true, timer := if x.cfg.pairTimeout = 0 then none else some x.cfg.pairTimeout }
  (x.ready = true → t = s) ∧
  (x.ready = false → (s.chan (chanOther c)).ready = false → t = w) ∧
  (x.ready = false → (s.chan (chanOther c)).ready = true → ∀ hopA restA hopB restB,
    w.chA.offers hopA restA → w.chB.offers hopB restB →
    ∃ u, Started w.settleEpoch u .A hopA restA ∧ Started u t .B hopB restB)

/-- A head is waited on: OVERSTAY with its report where the channel has a current hop and is not there yet, else
nothing (R45, R51). -/
def Waited (s t : State) (c : Chan) : Prop :=
  t = if (s.chan c).cur.isSome = true ∧ (s.chan c).st ≠ .overstay
    then { s.setChan c { s.chan c with st := .overstay } with
      reports := s.reports.make (.channelState c .overstay) }
    else s

/-- The entry into SWITCHING: BLANK joins the hold set (R52, R59). -/
def Blanked (s t : State) (c : Chan) : Prop :=
  Moved s t c { s.chan c with st := .switching } { (s.chan c).gate.hold with blank := true }

/-- The trigger of the head is met (R51, R52, R95): it starts where it is not blank or the gate is CLOSED; else the
channel enters SWITCHING, and a gate that this shuts at once starts it too. -/
def Met (s t : State) (c : Chan) (hop : HopEntry) (rest : List HopEntry) : Prop :=
  (hop.blank = false ∨ (s.chan c).gate.st = .closed → Started s.settleEpoch t c hop rest) ∧
  (hop.blank = true → (s.chan c).gate.st ≠ .closed → ∃ b, Blanked s b c ∧
    ((b.chan c).gate.st ≠ .closed → t = b) ∧
    ((b.chan c).gate.st = .closed → Started b.settleEpoch t c hop rest))

/-- The head `hop` is evaluated (Table 3-4, R51, R57, R58, R62, R75, R76): by its trigger it is met or waited on; a
TIME head is compared with the count of the period (R14; assumption log 10), and where that has passed its value
LATE_START is made first (assumption log 22); a PAIRED head makes the channel ready, by way of SWITCHING where it
is blank and the gate is not CLOSED. `kept` says that the channel comes from SWITCHING with the gate CLOSED under
BLANK, which a blank PAIRED head keeps (R83). -/
def Evaluated (s t : State) (c : Chan) (hop : HopEntry) (rest : List HopEntry) (kept : Bool) : Prop :=
  let v := s.settleEpoch
  (hop.trigger = .after → Met s t c hop rest) ∧
  (hop.trigger = .line → Waited s t c) ∧
  (∀ at_, hop.trigger = .time at_ →
    (v.epoch.count < at_ → Waited v t c) ∧
    (v.epoch.count = at_ → Met v t c hop rest) ∧
    (at_ < v.epoch.count →
      Met (v.report (.lateStart c hop.tag (v.epoch.count - at_))) t c hop rest)) ∧
  (hop.trigger = .paired →
    (hop.blank = true → (s.chan c).gate.st ≠ .closed ∨ kept = true → ∃ b, Blanked s b c ∧
      ((b.chan c).gate.st ≠ .closed → t = b) ∧ ((b.chan c).gate.st = .closed → Readied b t c)) ∧
    (hop.blank = false ∨ ((s.chan c).gate.st = .closed ∧ kept = false) →
      ∃ w, Waited s w c ∧ Readied w t c))

/-- ENDING completes (R39, R64): the hop is released and its pin falls, or in cycle mode it joins the tail; NO_HOP
takes the place of ENDING; and towards WAITING the head of a queue that is not empty is evaluated. The accumulator
keeps what it has moved to in this period (assumption log 43). -/
def EndingDone (s t : State) (c : Chan) (dest : EndDest) : Prop :=
  let x := s.chan c
  ∃ w : State, (∀ i, w.slot i = if x.cfg.cycle = false ∧ x.cur.map HopEntry.slot = some i
      then { s.slot i with pins := (s.slot i).pins - 1 } else s.slot i) ∧
    Moved { s with slots := w.slots } w c
      { x with
        st := (match dest with | .idle => .idle | .waiting => .waiting), cur := none, dwell := 0,
        queue := if x.cfg.cycle then x.queue ++ x.cur.toList else x.queue }
      { x.gate.hold with noHop := true, ending := false } ∧
    (dest = .idle ∨ (w.chan c).queue = [] → t = w) ∧
    (dest = .waiting → ∀ hop rest, (w.chan c).queue = hop :: rest →
      Evaluated (w.setChan c { w.chan c with selfHead := false }) t c hop rest false)

/-- The entry into ENDING (R63, R64): ENDING takes the place of BLANK in the hold set, and where the gate is CLOSED,
ENDING completes at once. -/
def EndingEntered (s t : State) (c : Chan) (dest : EndDest) : Prop :=
  ∃ w : State, Moved s w c
      { s.chan c with st := .ending dest, stopAtEnd := false, selfHead := false }
      { (s.chan c).gate.hold with ending := true, blank := false } ∧
    ((w.chan c).gate.st ≠ .closed → t = w) ∧
    ((w.chan c).gate.st = .closed → EndingDone w t c dest)

/-- The underrun procedure (R61, Table 3-5): UNDERRUN first (assumption log 22), then what the policy does. -/
def Underran (s t : State) (c : Chan) : Prop :=
  let w := State.report (s.setChan c { s.chan c with selfHead := false })
    (.underrun c (s.chan c).cfg.policy)
  ((s.chan c).cfg.policy = .hold →
    t = if (s.chan c).st = .overstay then w else { w.setChan c { w.chan c with st := .overstay } with
      reports := w.reports.make (.channelState c .overstay) }) ∧
  ((s.chan c).cfg.policy = .squelch → EndingEntered w t c .waiting) ∧
  ((s.chan c).cfg.policy = .stop → EndingEntered w t c .idle)

/-- What follows where a removal leaves a channel with a current hop (R35, R38, R54, R69, R82): the underrun
procedure on an empty queue outside cycle mode, else an evaluation of the head, which on an empty queue is the
current hop. -/
def HeadRemoved (s t : State) (c : Chan) (kept : Bool) : Prop :=
  let x := s.chan c
  let v := s.setChan c { x with selfHead := x.queue.isEmpty && x.cfg.cycle && x.cur.isSome }
  (x.queue = [] → x.cfg.cycle = false → Underran s t c) ∧
  ∀ hop rest, (v.chan c).offers hop rest → Evaluated v t c hop rest kept

/-- BLANK leaves the hold set of a channel that is not in SWITCHING (R69, R82, R83); the gate acts last (assumption
log 22). -/
def BlankDropped (s t : State) (c : Chan) : Prop :=
  ((s.chan c).gate.hold.blank = false ∨ (s.chan c).st = .switching → t = s) ∧
  ((s.chan c).gate.hold.blank = true → (s.chan c).st ≠ .switching →
    Moved s t c (s.chan c) { (s.chan c).gate.hold with blank := false })

end Sys2Proof.Machine
end

