-- ==== Sys2Proof/WellFormed.lean ====
section
/-! DEFINITION. Well-formed commands: those an event of the part can give (assumption logs 6, 7, 16,
24). -/

namespace Sys2Proof

open Machine

/-- A raw payload fits in a frame and spells no request of the rows of its kind: its length is not of
Table 7-5, or its code byte at `code` is none of `codes` (R132, R133). -/
def rawWf (k : Kind) (code : Nat) (codes : List Byte) (p : List Byte) : Bool :=
  decide (p.length ≤ Config.maxPayload) &&
    (!lengthFits k p || (!codes.isEmpty && !codes.contains (byteAt p code)))

/-- A request's payload fits in a frame (R112), and so does a raw one, which spells no request. -/
def Req.wf (r : Req) (k : Kind) (code : Nat) (codes : List Byte) (payload : List Byte) : Bool :=
  match r.raw with
  | none => lengthFits k payload
  | some p => rawWf k code codes p

/-- The code bytes of the kinds whose codes are rows of their own (Table 7-6). -/
def codesOf : Kind → List Byte
  | .reset => [1#8, 2#8]
  | .epoch => [0#8, 1#8, 2#8, 3#8]
  | .stop => [0#8, 1#8]
  | .gate => [0#8, 1#8]
  | _ => []

/-- Where that code byte stands in the payload (Table 7-7). -/
def codeAt : Kind → Nat
  | .stop => 1
  | .gate => 1
  | _ => 0

/-- A request of this kind with this payload is well-formed. -/
def reqWf (r : Req) (k : Kind) (payload : List Byte) : Bool := r.wf k (codeAt k) (codesOf k) payload

/-- A well-formed command. -/
def Instr.wf : Instr → Bool
  | .ping r data => reqWf r .ping data
  | .identify r => reqWf r .identify []
  | .status r => reqWf r .status []
  | .resetChannels r => reqWf r .reset [1#8]
  | .resetFull r => reqWf r .reset [2#8]
  | .slotSet r index word offset label => reqWf r .slotSet (slotSetPayload index word offset label)
  | .slotClear r index => reqWf r .slotClear [index]
  | .slotGet r index => reqWf r .slotGet [index]
  | .epochNow r => reqWf r .epoch [0#8]
  | .epochArmOnce r => reqWf r .epoch [1#8]
  | .epochArmEvery r => reqWf r .epoch [2#8]
  | .epochDisarm r => reqWf r .epoch [3#8]
  | .epochGet r => reqWf r .epochGet []
  | .hopAppend r channel count entries => reqWf r .hopAppend (channel :: count :: entries)
  | .hopFlush r channel => reqWf r .hopFlush [channel]
  | .queueGet r channel first count => reqWf r .queueGet [channel, first, count]
  | .start r channel => reqWf r .start [channel]
  | .stopAtEnd r channel => reqWf r .stop [channel, 0#8]
  | .stopNow r channel => reqWf r .stop [channel, 1#8]
  | .channelConfig r channel policy cycle edge ramp follow pairTimeout =>
    reqWf r .channelConfig (channelConfigPayload channel policy cycle edge ramp follow pairTimeout)
  | .channelGet r channel => reqWf r .channelGet [channel]
  | .gateHold r channel => reqWf r .gate [channel, 0#8]
  | .gateRelease r channel => reqWf r .gate [channel, 1#8]
  | .reportConfig r mask => reqWf r .reportConfig (be16 mask)
  | .storeErase r area => reqWf r .storeErase [area]
  | .storeWrite r area chunk data => reqWf r .storeWrite (area :: chunk :: data)
  | .storeCommit r area autostart channel startAfter =>
    reqWf r .storeCommit [area, autostart, channel, startAfter]
  | .storeRevoke r area => reqWf r .storeRevoke [area]
  | .storeRead r area offset length => reqWf r .storeRead (area :: be16 offset ++ [length])
  | .storeBlank r area => reqWf r .storeBlank [area]
  | .storeDigest r area first last => reqWf r .storeDigest [area, first, last]
  | .storeInfo r => reqWf r .storeInfo []
  | .load r area channel startFlag => reqWf r .load [area, channel, startFlag]
  | .unknownKind _ _ kind payload =>
    decide (payload.length ≤ Config.maxPayload) && (kindOf kind).isNone
  | .lengthFault length => decide (Config.maxPayload < length.toNat)
  | .checkFault kind seq payload check =>
    decide (payload.length ≤ Config.maxPayload) && check != frameCheck kind seq payload
  | .interbyteTimeout => true
  | .rxBreak => true
  | .transmissionEnd => true
  | .autostartStep => true
  | .fullReset _ _ => true
  | .coldReset _ span => decide (span.progress ≤ 64)
  | .scanComplete => true
  | .eraseComplete => true
  | .writeComplete => true
  | .validation => true
  | .commitComplete => true
  | .revokeComplete => true
  | .loadReadComplete _ => true
  | .dwellExpiry _ => true
  | .pairTimerExpiry _ => true
  | .gateArrival _ => true
  | .triggerEdge _ => true
  | .timeArrival _ => true
  | .syncEdge => true
  | .wrap => true
  | .gateLineChange => true
  | .samplePeriod _ => true
  | .byteReceived _ _ _ => true
  | .retentionLoss area changes =>
    decide (area < 8) && changes.all fun p => decide (p.1 < Config.areaBytes)

end Sys2Proof
end

