-- ==== Sys2Proof/Certificates/Slice0/Obligations.lean ====
section
/-! DEFINITION. The statements for the provers. In them `e` is the state in which a request is executed
(`State.frameEnds`): the receiver is back in HUNT and, where the request comes with SCLK stopped, every event of
the last period has been taken (assumption log 9); with SCLK running nothing else differs from `s`. A hop start
and a comparison with the epoch count are over `State.settleEpoch`, in which an epoch event of the period that is
due has been taken (R14; assumption log 10); with none due it is the state itself. `State.replied` is the state
after a reply is placed and the arbiter has chosen. What a channel does is said by the relations of Safety.lean,
from `GateLeft` to `BlankDropped`, which leave nothing open where the gate keeps its laws. -/

open Sys2Proof Sys2Proof.Machine

/-! The step and the reset. -/

/-- The step runs the command at the front of the queue with the queue's rest, and idles on an empty queue
(the model's choice, assumption log 4). -/
def Obligations.StepRunsFrontCommand : Prop :=
  (∀ (c : Instr) (s : State), step { s with pending := c :: s.pending } = exec c s) ∧
  ∀ s : State, s.pending = [] → step s = .next s

/-- What a cold reset leaves (R13, R21, R43, R73, R86, R104, R109, R129, R149, R168, Table 10-3). The store's
contents and the link rate of this one state are the model's choice (assumption logs 1, 2), and that the scan
has begun, with both ports at 0, is deduced (assumption logs 3, 31). -/
def Obligations.ResetState : Prop :=
  (∀ i, State.reset.slot i = { tone := none, pins := 0, reserved := false }) ∧
  State.reset.epoch.count = 0#48 ∧ State.reset.epoch.arm = .disarmed ∧
  (∀ c, (State.reset.chan c).st = .idle ∧ (State.reset.chan c).cur = none ∧
    (State.reset.chan c).dwell = 0 ∧ (State.reset.chan c).acc = 0#32 ∧ (State.reset.chan c).queue = [] ∧
    (State.reset.chan c).stopAtEnd = false ∧ (State.reset.chan c).ready = false ∧
    (State.reset.chan c).timer = none ∧
    (State.reset.chan c).cfg =
      { policy := .hold, cycle := false, edge := .rising, ramp := 64, follow := false,
        pairTimeout := 0 } ∧
    (State.reset.chan c).gate.st = .closed ∧ (State.reset.chan c).gate.gain = 0 ∧
    (State.reset.chan c).gate.hold =
      { host := false, line := false, blank := false, ending := false, noHop := true }) ∧
  State.reset.gateLine = false ∧ State.reset.ports.douta = 0#16 ∧ State.reset.ports.doutb = 0#16 ∧
  State.reset.reports =
    { queue := [], completion := none, lost := 0, nextSeq := 0#8, mask := 0x04FE#16,
      isOpen := false, begun := 0 } ∧
  State.reset.link.rx = .hunt ∧ State.reset.link.buf = [] ∧ State.reset.link.waiting = [] ∧
  State.reset.link.tx = none ∧ State.reset.link.cache = [] ∧ State.reset.link.deaf = false ∧
  State.reset.store.engine = .scanning ∧ State.reset.store.op = some (.scan .cold) ∧
  State.reset.loader = { ctx := none, staging := [], auto := [], autoPos := 0 } ∧
  State.reset.pending = []

/-- The laws of Safety.lean hold right after reset. -/
def Obligations.ResetLawful : Prop :=
  State.reset.lawful = true ∧ State.reset.reports.lawful = true ∧ State.reset.link.lawful = true ∧
  State.reset.store.wearLawful = true ∧ Memory.wf State.reset.store.mem = true ∧
  State.reset.lineBusy = true

/-! Laws every step keeps. -/

/-- The store's memory keeps its canonical form: addresses rising, no listed byte erased. -/
def Obligations.MemoryFormKept : Prop :=
  ∀ s t : State, Memory.wf s.store.mem = true → step s = .next t → Memory.wf t.store.mem = true

/-- The laws of the channels, gates, pins, reserved marks, loader and store engine (R5, R7, R24, R38, R44, R53,
R74, R84, R87, R89, R95, R101, R148, R155, R169) are kept by every step. -/
def Obligations.LawfulKept : Prop :=
  ∀ s t : State, s.lawful = true → step s = .next t → t.lawful = true

/-- The window, the refusal slot and the retry cache (R118 to R120), the report queue, its keys, the lost
count and the mask (R138, R140 to R142, R147) and the erase limit (R154): each bound is kept by every
step. -/
def Obligations.BoundsKept : Prop :=
  (∀ s t : State, s.link.lawful = true → step s = .next t → t.link.lawful = true) ∧
  (∀ s t : State, s.reports.lawful = true → step s = .next t → t.reports.lawful = true) ∧
  (∀ s t : State, s.store.wearLawful = true → step s = .next t → t.store.wearLawful = true)

/-- The transmit line is never free while something waits, but between the last character of a RESET FULL reply
and the reset (R122, R127; FULL_RESET is a row of its own, assumption log 15). -/
def Obligations.LineNeverIdle : Prop :=
  ∀ s t : State, s.lineBusy = true → step s = .next t → t.lineBusy = true

/-- Only these commands change the epoch count (R14, R16, R19, R21): EPOCH NOW, as a row or as the last byte of
its frame, a SYNC edge, a sample period and the two resets. Where a SYNC edge of the period that finds the
block armed has not been taken, the count becomes 0 also with a command that reads it or stops SCLK (the
model's choice, assumption logs 9, 10). -/
def Obligations.EpochCountChangers : Prop :=
  ∀ (i : Instr) (s t : State), exec i s = .next t → t.epoch.count ≠ s.epoch.count →
    let edge := s.epoch.syncDue = true ∧ s.epoch.arm ≠ .disarmed ∧ t.epoch.count = 0#48
    match i with
    | .epochNow _ | .syncEdge | .samplePeriod _ | .fullReset .. | .coldReset .. => True
    | .byteReceived _ b _ => s.link.rx = .checkLo ∧ (edge ∨
        ∃ n seq hi, s.link.buf = [n, 0x0C#8, seq, 0x00#8, hi] ∧
          crc16 [n, 0x0C#8, seq, 0x00#8] = hi ++ b ∧ t.epoch.count = 0#48)
    | .epochArmOnce r | .epochArmEvery r | .epochDisarm r =>
      (r.raw = some [0x00#8] ∧ t.epoch.count = 0#48) ∨ (edge ∧ r.pins.sclkStopped = true)
    | .unknownKind _ p _ _ => edge ∧ p.sclkStopped = true
    | .hopAppend .. | .hopFlush .. | .start .. | .gateHold .. | .gateRelease .. | .loadReadComplete ..
    | .dwellExpiry .. | .pairTimerExpiry .. | .gateArrival .. | .triggerEdge .. | .timeArrival ..
    | .gateLineChange => edge
    | .wrap => False
    | j => edge ∧ ∃ r k p, requestOf j = some (r, k, p) ∧ r.pins.sclkStopped = true

/-- Only the completions of an erase, a chunk write, a commit and a revoke, a cold reset that cuts such an
operation short and a loss of retention change a byte of an area (R150). That the bytes take their values in
these events, and not one by one while the operation runs, is the model's choice (assumption log 40). -/
def Obligations.StoredByteChangers : Prop :=
  ∀ (i : Instr) (s t : State), exec i s = .next t → ¬ sameBytes s t →
    match i with
    | .eraseComplete | .writeComplete | .commitComplete | .revokeComplete | .coldReset ..
    | .retentionLoss .. => True
    | _ => False

/-- What the arbiter's choice at the end of an event may change, and nothing else: the frame in
transmission, the waiting frames, the reports that wait, the engine state and the autostart list, and the two
ports (R109, R122, R138, R144, R181). -/
def Obligations.FinishFrame : Prop :=
  ∀ s : State, s.finish.slots = s.slots ∧ s.finish.epoch = s.epoch ∧
    s.finish.chA = s.chA ∧ s.finish.chB = s.chB ∧
    s.finish.gateLine = s.gateLine ∧ s.finish.gatePin = s.gatePin ∧
    s.finish.ports.strobes = s.ports.strobes ∧ s.finish.ports.periodOpen = s.ports.periodOpen ∧
    s.finish.ports.priorA = s.ports.priorA ∧ s.finish.ports.priorB = s.ports.priorB ∧
    s.finish.reports.mask = s.reports.mask ∧ s.finish.reports.isOpen = s.reports.isOpen ∧
    s.finish.link.rx = s.link.rx ∧ s.finish.link.buf = s.link.buf ∧ s.finish.link.deaf = s.link.deaf ∧
    s.finish.link.cache = s.link.cache ∧ s.finish.link.rate = s.link.rate ∧
    s.finish.link.fullResetDue = s.link.fullResetDue ∧
    s.finish.store.mem = s.store.mem ∧ s.finish.store.dirs = s.store.dirs ∧
    s.finish.store.op = s.store.op ∧ s.finish.loader.ctx = s.loader.ctx ∧
    s.finish.loader.staging = s.loader.staging ∧ s.finish.pending = s.pending ∧
    (s.link.tx.isSome = true → s.finish = s.drivePorts)

/-! The general requests of the link. -/

/-- PING (R123): answered in every state with its own payload and no status, and nothing else changes. -/
def Obligations.PingEchoes : Prop :=
  ∀ (s : State) (r : Req) (data : List Byte), s.takes r .ping data →
    let e := s.frameEnds r.pins
    exec (.ping r data) s = .next (e.replied r .ping data data)

/-- IDENTIFY (R124): the fixed values and the link rate in force. -/
def Obligations.IdentifyAnswers : Prop :=
  ∀ (s : State) (r : Req), s.takes r .identify [] →
    let e := s.frameEnds r.pins
    exec (.identify r) s = .next (e.replied r .identify []
      ([0x00#8, 0x04#8, 0x82#8, 1#8, 48#8, 2#8, 64#8, 8#8, 0x10#8, 0x00#8] ++
        match e.link.rate with
        | .r115200 => [0x00#8, 0x01#8, 0xC2#8, 0x00#8]
        | .r460800 => [0x00#8, 0x07#8, 0x08#8, 0x00#8]
        | .r921600 => [0x00#8, 0x0E#8, 0x10#8, 0x00#8]
        | .r2000000 => [0x00#8, 0x1E#8, 0x84#8, 0x80#8]))

/-- STATUS (R125): the snapshot of Table 7-9, and nothing changes. -/
def Obligations.StatusAnswers : Prop :=
  ∀ (s : State) (r : Req), s.takes r .status [] →
    let e := s.frameEnds r.pins
    exec (.status r) s = .next (e.replied r .status []
      [0x00#8, chanStateCode e.chA.st, b8 e.chA.queue.length, gateStateCode e.chA.gate.st,
        chanStateCode e.chB.st, b8 e.chB.queue.length, gateStateCode e.chB.gate.st,
        armCode e.epoch.arm, engineCode e.store.engine, b8 e.reports.queue.length,
        b8 (e.reports.lost / 256), b8 e.reports.lost])

/-- RESET CHANNELS (R126): both queues empty, both channels IDLE with no current hop, dwell and accumulator 0,
not ready; every pin 0 and every mark clear with the tones kept; both gates CLOSED at gain 0 under NO_HOP, HOST
kept and LINE by the line; the load cancelled; the epoch, the configurations, the store's areas, directory and
operation and the mask left. Each channel that was not IDLE makes its CHANNEL_STATE (R73) and each gate that was
not CLOSED its GATE_STATE (R104), after the cancelled load's, in the model's order (assumption log 22). The line
goes by the sample the gates took last, which is an older one where a changed sample has not been taken yet (the
model's choice, assumption log 30). The staging buffer is empty where a load was cancelled or where it was
empty, as `State.lawful` has it without a load. That every pin count is 0 at once equals lowering the counts
entry by entry only where R5 holds (deduced, assumption log 36). -/
def Obligations.ResetChannelsActs : Prop :=
  ∀ (s : State) (r : Req), s.takes r .reset [1#8] →
    let e := s.frameEnds r.pins
    ∃ t : State, exec (.resetChannels r) s = .next (t.replied r .reset [1#8] [0x00#8]) ∧
      (∀ i, t.slot i = { tone := (e.slot i).tone, pins := 0, reserved := false }) ∧
      (∀ c, (t.chan c).queue = [] ∧ (t.chan c).cur = none ∧ (t.chan c).st = .idle ∧
        (t.chan c).dwell = 0 ∧ (t.chan c).acc = 0#32 ∧ (t.chan c).stopAtEnd = false ∧
        (t.chan c).ready = false ∧ (t.chan c).timer = none ∧ (t.chan c).cfg = (e.chan c).cfg ∧
        (t.chan c).trigLevel = (e.chan c).trigLevel ∧
        (t.chan c).gate.st = .closed ∧ (t.chan c).gate.gain = 0 ∧
        (t.chan c).gate.hold =
          { host := (e.chan c).gate.hold.host, line := (e.chan c).cfg.follow && e.gateLine,
            blank := false, ending := false, noHop := true }) ∧
      t.loader.ctx = none ∧ (e.loader.ctx.isSome = true ∨ e.loader.staging = [] → t.loader.staging = []) ∧
      t.loader.auto = e.loader.auto ∧
      t.loader.autoPos = e.loader.autoPos ∧ t.epoch = e.epoch ∧ t.store = e.store ∧
      t.reports.mask = e.reports.mask ∧ t.reports.isOpen = e.reports.isOpen ∧
      t.gateLine = e.gateLine ∧ t.link = e.link ∧
      (∀ k, e.loader.ctx = some k → e.reports.isOpen = true →
        t.reports.completion = some ⟨.loadDone k.seq k.chan k.area .cancelled 0xFF#8, 1⟩) ∧
      let cancelled := match e.loader.ctx with
        | none => e.reports
        | some k =>
          (if (e.chan k.chan).st = .idle then e.reports
            else e.reports.make (.channelState k.chan .idle)).make
            (.loadDone k.seq k.chan k.area .cancelled 0xFF#8)
      let after := fun (b : ReportBlock) (c : Chan) =>
        let b1 := if (e.chan c).st = .idle ∨ e.loader.ctx.map LoadCtx.chan = some c then b
          else b.make (.channelState c .idle)
        if (e.chan c).gate.st = .closed then b1
          else b1.make (.gateState c .closed (t.chan c).gate.hold)
      t.reports = after (after cancelled .A) .B

/-- RESET FULL (R127, R128): taken while the engine is IDLE or READING, it is answered OK and changes nothing
but to leave the receiver deaf; otherwise it is refused STORE_BUSY. A deaf receiver takes no request of any
row and no byte, and makes no fault. -/
def Obligations.ResetFullAndDeafness : Prop :=
  (∀ (s : State) (r : Req), s.takes r .reset [2#8] →
    let e := s.frameEnds r.pins
    (e.store.engine = .idle ∨ e.store.engine = .reading →
      exec (.resetFull r) s = .next (State.replied
        { e with link := { e.link with deaf := true } } r .reset [2#8] [0x00#8])) ∧
    (e.store.engine ≠ .idle ∧ e.store.engine ≠ .reading →
      exec (.resetFull r) s = .next (e.replied r .reset [2#8] [0x30#8]))) ∧
  (∀ s : State, s.link.deaf = true →
    (∀ (i : Instr) (r : Req) (k : Kind) (payload : List Byte), requestOf i = some (r, k, payload) →
      exec i s = .next s) ∧
    (∀ (seq : Byte) (p : Pins) (k : Byte) (data : List Byte),
      exec (.unknownKind seq p k data) s = .next s) ∧
    (∀ (b : Bool) (x : Byte) (p : Pins), exec (.byteReceived b x p) s = .next s) ∧
    (∀ n : Byte, exec (.lengthFault n) s = .next s) ∧
    (∀ (k q : Byte) (p : List Byte) (v : BitVec 16), exec (.checkFault k q p v) s = .next s) ∧
    exec .interbyteTimeout s = .next s ∧ exec .rxBreak s = .next s)

/-! The slot table. -/

/-- SLOT_SET (R8, R9): a bad index, word or label is BAD_VALUE, a pinned slot SLOT_PINNED with its pin count
and mark, and otherwise the slot takes the word, offset and label; nothing else changes. -/
def Obligations.SlotSetWrites : Prop :=
  ∀ (s : State) (r : Req) (index : Byte) (word : BitVec 32) (offset : BitVec 16) (label : List Byte),
    s.takes r .slotSet (slotSetPayload index word offset label) →
    let e := s.frameEnds r.pins
    (48 ≤ index.toNat ∨ word = 0#32 ∨ (∃ c ∈ label, c.toNat < 0x20 ∨ 0x7E < c.toNat) →
      exec (.slotSet r index word offset label) s = .next (e.replied r .slotSet
        (slotSetPayload index word offset label) [0x11#8])) ∧
    ∀ i : Fin 48, i.val = index.toNat → word ≠ 0#32 →
      (∀ c ∈ label, 0x20 ≤ c.toNat ∧ c.toNat ≤ 0x7E) →
      (0 < (e.slot i).pins ∨ (e.slot i).reserved = true →
        exec (.slotSet r index word offset label) s = .next (e.replied r .slotSet
          (slotSetPayload index word offset label)
          [0x20#8, b8 (e.slot i).pins, boolCode (e.slot i).reserved])) ∧
      ((e.slot i).pins = 0 → (e.slot i).reserved = false →
        exec (.slotSet r index word offset label) s = .next (State.replied
          { e with
            slots := e.slots.set i.val
              { tone := some { word := word, offset := offset,
                               label := if label = [] then none else some label },
                pins := 0, reserved := false } i.isLt }
          r .slotSet (slotSetPayload index word offset label) [0x00#8]))

/-- SLOT_CLEAR (R10, R9): BAD_VALUE above 47, SLOT_PINNED on a pinned slot, and otherwise the slot is EMPTY;
nothing else changes. -/
def Obligations.SlotClearEmpties : Prop :=
  ∀ (s : State) (r : Req) (index : Byte), s.takes r .slotClear [index] →
    let e := s.frameEnds r.pins
    (48 ≤ index.toNat → exec (.slotClear r index) s =
      .next (e.replied r .slotClear [index] [0x11#8])) ∧
    ∀ i : Fin 48, i.val = index.toNat →
      (0 < (e.slot i).pins ∨ (e.slot i).reserved = true → exec (.slotClear r index) s =
        .next (e.replied r .slotClear [index]
          [0x20#8, b8 (e.slot i).pins, boolCode (e.slot i).reserved])) ∧
      ((e.slot i).pins = 0 → (e.slot i).reserved = false → exec (.slotClear r index) s =
        .next (State.replied
          { e with
            slots := e.slots.set i.val { tone := none, pins := 0, reserved := false } i.isLt }
          r .slotClear [index] [0x00#8]))

/-- SLOT_GET (R11): the record with the phase the slot phase law gives (R1), and nothing changes. -/
def Obligations.SlotGetReads : Prop :=
  ∀ (s : State) (r : Req) (index : Byte), s.takes r .slotGet [index] →
    let e := s.frameEnds r.pins
    (48 ≤ index.toNat → exec (.slotGet r index) s =
      .next (e.replied r .slotGet [index] [0x11#8])) ∧
    ∀ i : Fin 48, i.val = index.toNat →
      ((e.slot i).tone = none → exec (.slotGet r index) s =
        .next (e.replied r .slotGet [index]
          [0x00#8, index, 0x00#8, b8 (e.slot i).pins, boolCode (e.slot i).reserved])) ∧
      (∀ t : Tone, (e.slot i).tone = some t → exec (.slotGet r index) s =
        .next (e.replied r .slotGet [index]
          ([0x00#8, index, 0x01#8, b8 (e.slot i).pins, boolCode (e.slot i).reserved] ++
            be32 t.word ++ be16 t.offset ++
            be32 (BitVec.ofNat 32 (t.offset.toNat * 65536 + t.word.toNat * e.epoch.count.toNat)) ++
            b8 (t.label.getD []).length :: t.label.getD [])))

/-! The epoch block. -/

/-- EPOCH (R19, R16): the arming modes set the arm state alone. NOW is an epoch event with cause REQUEST
(R14, R48, R49; assumption logs 10, 11), which leaves the arm state; where this period has made no COHERENT
switch and no HOP_BEGIN that waits, it sets the count to 0 and makes its report, and nothing else changes but
that a wrap of the period makes no report (R15). -/
def Obligations.EpochRequests : Prop :=
  ∀ (s : State) (r : Req),
    let e := s.frameEnds r.pins
    (s.takes r .epoch [1#8] → exec (.epochArmOnce r) s =
      .next (State.replied { e with epoch := { e.epoch with arm := .once } } r .epoch [1#8] [0x00#8])) ∧
    (s.takes r .epoch [2#8] → exec (.epochArmEvery r) s =
      .next (State.replied { e with epoch := { e.epoch with arm := .every } } r .epoch [2#8] [0x00#8])) ∧
    (s.takes r .epoch [3#8] → exec (.epochDisarm r) s =
      .next (State.replied { e with epoch := { e.epoch with arm := .disarmed } }
        r .epoch [3#8] [0x00#8])) ∧
    (s.takes r .epoch [0#8] →
      (∃ t : State, exec (.epochNow r) s = .next (t.replied r .epoch [0#8] [0x00#8]) ∧
        EpochTaken e t .request) ∧
      ((∀ c, (e.chan c).coherentNow = none) → e.reports.begun = 0 →
        exec (.epochNow r) s = .next (State.replied
          { e with
            epoch := { e.epoch with count := 0#48, wrapDue := false, wrapHeld := false },
            reports := e.reports.make (.epochEvent .request) } r .epoch [0#8] [0x00#8])))

/-- EPOCH_GET (R20): the epoch count and the arm state, in every state; nothing changes. -/
def Obligations.EpochGetReads : Prop :=
  ∀ (s : State) (r : Req), s.takes r .epochGet [] →
    let e := s.frameEnds r.pins
    exec (.epochGet r) s = .next (e.replied r .epochGet []
      (0x00#8 :: be48 e.epoch.count ++ [armCode e.epoch.arm]))

/-! Hop entries and queues. -/

/-- An entry in range, written in the encoding of Table 7-10, has the length its flags byte gives and is
read back as itself, whatever bytes follow it (R28, R134). -/
def Obligations.HopEntryRoundTrip : Prop :=
  ∀ (e : HopEntry) (rest : List Byte), e.inRange →
    (encodeEntry e).length = entryLength (entryFlags e) ∧
    entryOf (wireEntry (encodeEntry e)) = some e ∧
    ∀ n i, splitEntries (n + 1) i (encodeEntry e ++ rest) =
      (splitEntries n (i + 1) rest).map fun raws => encodeEntry e :: raws

/-- HOP_APPEND taken (R26, R31, R32, R5): 1 to 8 entries in range that name LOADED slots, fit in the room and,
where blank, outlast the ramp join the tail in order, and each raises its slot's pin count. On a channel that is
not in WAITING or OVERSTAY, or whose queue was not empty, nothing else changes. On an empty queue in WAITING, or
in OVERSTAY under HOLD, the first entry is evaluated at once (`Evaluated`: R51, R55, R57, R62, R75, R76), with
every trigger and every gate. In OVERSTAY on a channel that waits on its own current hop the entries join behind
it, and nothing else changes (Table 2-4, R38; that the offer is one bit is assumption log 29). A start and a
comparison with the epoch count take an epoch event of the period first, and the reports of one event are in the
model's order (assumption logs 10, 22). -/
def Obligations.HopAppendTaken : Prop :=
  ∀ (s : State) (r : Req) (channel : Byte) (c : Chan) (es : List HopEntry),
    s.takes r .hopAppend (channel :: b8 es.length :: es.flatMap encodeEntry) →
    let e := s.frameEnds r.pins
    chanOf channel = some c → 1 ≤ es.length → es.length ≤ 8 → (e.chan c).st ≠ .loading →
    (∀ q ∈ es, q.inRange ∧ (e.slot q.slot).tone.isSome = true ∧
      (q.blank = true → (e.chan c).cfg.ramp < q.dwell.toNat)) →
    (e.chan c).queue.length + es.length +
      (if (e.chan c).cfg.cycle = true ∧ (e.chan c).cur.isSome = true then 1 else 0) ≤ 64 →
    ∃ t u : State, exec (.hopAppend r channel (b8 es.length) (es.flatMap encodeEntry)) s =
        .next (State.replied u r .hopAppend (channel :: b8 es.length :: es.flatMap encodeEntry)
          [0x00#8, 0#8, b8 ((e.chan c).queue.length + es.length)]) ∧
      t.chan c = { e.chan c with queue := (e.chan c).queue ++ es } ∧
      t.chan (chanOther c) = e.chan (chanOther c) ∧
      (∀ i, t.slot i =
        { e.slot i with pins := (e.slot i).pins + es.countP fun q => q.slot == i }) ∧
      t.epoch = e.epoch ∧ t.reports = e.reports ∧ t.store = e.store ∧ t.loader = e.loader ∧
      t.link = e.link ∧ t.gateLine = e.gateLine ∧ t.gatePin = e.gatePin ∧ t.ports = e.ports ∧
      ((e.chan c).queue ≠ [] ∨ ((e.chan c).st ≠ .waiting ∧ (e.chan c).st ≠ .overstay) → u = t) ∧
      ((e.chan c).st = .overstay → (e.chan c).selfHead = true → u = t) ∧
      (∀ hop rest, (e.chan c).queue = [] → es = hop :: rest →
        (e.chan c).st = .waiting ∨ ((e.chan c).st = .overstay ∧ (e.chan c).selfHead = false) →
        Evaluated (t.setChan c { t.chan c with selfHead := false }) u c hop rest false)

/-- HOP_APPEND refused (R26 to R30, R134), by the first check that fails and with the first entry that fails it:
a bad channel field is BAD_VALUE with 0 and 0, a LOADING channel CHANNEL_BUSY, a count outside 1 to 8 or an
encoding that is cut short or goes on past the last counted entry BAD_LENGTH, a field out of range BAD_VALUE,
no room QUEUE_FULL, an EMPTY slot SLOT_EMPTY, a blank entry that does not outlast the ramp DWELL_SHORT. Nothing
changes. -/
def Obligations.HopAppendRefused : Prop :=
  ∀ (s : State) (r : Req) (channel count : Byte) (entries : List Byte),
    s.takes r .hopAppend (channel :: count :: entries) →
    let e := s.frameEnds r.pins
    let answers := fun body : List Byte => exec (.hopAppend r channel count entries) s =
      .next (e.replied r .hopAppend (channel :: count :: entries) body)
    (chanOf channel = none → answers [0x11#8, 0#8, 0#8]) ∧
    ∀ c : Chan, chanOf channel = some c →
      let length := b8 (e.chan c).queue.length
      let coded := fun raw : List Byte => 7 + (if (byteAt raw 1).getLsbD 6 then 6 else 0) +
        (if (byteAt raw 1).getLsbD 7 then 2 else 0)
      let whole := fun raw : List Byte => 2 ≤ raw.length ∧ raw.length = coded raw
      let bad := fun raw : List Byte =>
        48 ≤ (byteAt raw 0).toNat ∨ u24At (byteAt raw) 2 = 0#24 ∨ 32767 < (u16At (byteAt raw) 5).toNat ∨
        (byteAt raw 1).toNat % 4 = 3 ∨
        ((byteAt raw 1).getLsbD 6 = true ↔ (byteAt raw 1).toNat / 4 % 4 ≠ 2)
      ((e.chan c).st = .loading → answers [0x24#8, 0#8, length]) ∧
      ((e.chan c).st ≠ .loading →
        (count.toNat = 0 ∨ 8 < count.toNat → answers [0x10#8, 0#8, length]) ∧
        (∀ (raws : List (List Byte)) (tail : List Byte), 1 ≤ count.toNat → count.toNat ≤ 8 →
          (∀ raw ∈ raws, whole raw) → entries = raws.flatten ++ tail →
          (raws.length < count.toNat → tail.length < 2 ∨ tail.length < coded tail →
            answers [0x10#8, b8 raws.length, length]) ∧
          (raws.length = count.toNat → tail ≠ [] → answers [0x10#8, b8 (raws.length - 1), length])) ∧
        (∀ (before : List (List Byte)) (raw : List Byte) (after : List (List Byte)),
          count.toNat = before.length + 1 + after.length → count.toNat ≤ 8 →
          (∀ x ∈ before ++ raw :: after, whole x) → entries = (before ++ raw :: after).flatten →
          (∀ x ∈ before, ¬bad x) → bad raw → answers [0x11#8, b8 before.length, length]) ∧
        (∀ es : List HopEntry, count = b8 es.length → 1 ≤ es.length → es.length ≤ 8 →
          (∀ q ∈ es, q.inRange) → entries = es.flatMap encodeEntry →
          ((e.chan c).room < es.length → answers [0x22#8, b8 (e.chan c).room, length]) ∧
          (es.length ≤ (e.chan c).room → ∀ before q after, es = before ++ q :: after →
            ((∀ x ∈ before, (e.slot x.slot).tone.isSome = true) → (e.slot q.slot).tone = none →
              answers [0x21#8, b8 before.length, length]) ∧
            ((∀ x ∈ es, (e.slot x.slot).tone.isSome = true) →
              (∀ x ∈ before, x.blank = true → (e.chan c).cfg.ramp < x.dwell.toNat) →
              q.blank = true → q.dwell.toNat ≤ (e.chan c).cfg.ramp →
              answers [0x23#8, b8 before.length, length]))))

/-- HOP_FLUSH (R33, R34, R35, R179): a bad channel field is BAD_VALUE, an empty queue stays as it is; in IDLE,
DWELL and ENDING every entry leaves, each slot's pin count falls by 1 for each and nothing else changes, and in
WAITING the readiness ends with it (R80). In LOADING the load is cancelled too. In OVERSTAY and SWITCHING
outside cycle mode the underrun follows by policy (`Underran`: R61, R69, R70), and in cycle mode the current hop
is evaluated as the head (`Evaluated`: R38), in OVERSTAY without an edge of that period (R36; that it is so
whatever head was removed is the model's choice, assumption log 38). In SWITCHING the channel returns to
OVERSTAY first, and BLANK leaves last where it is not entered again (R69, R83). Where the gate is CLOSED already
in SWITCHING and the blank current hop of a cycle is met, the switch is made at once, by R52, while R70's row
keeps BLANK and SWITCHING: that is the model's choice, assumption log 49. A channel in OVERSTAY that waits on
its own current hop evaluates it again, and keeps a LINE edge of that period for it (the model's choice,
assumption log 38); one in SWITCHING towards it only loses its entries (assumption log 29). The reports of one
event are in the model's order, UNDERRUN first (assumption log 22), and a comparison with the epoch count takes
an epoch event of the period first (assumption log 10). Where ENDING completes at once the accumulator keeps
what it has moved to (assumption log 43). -/
def Obligations.HopFlushEmpties : Prop :=
  ∀ (s : State) (r : Req) (channel : Byte), s.takes r .hopFlush [channel] →
    let e := s.frameEnds r.pins
    (chanOf channel = none → exec (.hopFlush r channel) s =
      .next (e.replied r .hopFlush [channel] [0x11#8])) ∧
    ∀ c : Chan, chanOf channel = some c →
      let x := e.chan c
      let flushed := fun t : State => exec (.hopFlush r channel) s =
          .next (State.replied t r .hopFlush [channel] [0x00#8, b8 x.queue.length]) ∧
        (t.chan c).queue = [] ∧ (∀ i, (t.slot i).tone = (e.slot i).tone ∧ (t.slot i).pins =
          (e.slot i).pins - x.queue.countP fun q => q.slot == i) ∧
        t.store = e.store ∧ t.gateLine = e.gateLine ∧ t.link = e.link
      let alone := fun t : State =>
        t.chan (chanOther c) = e.chan (chanOther c) ∧ t.epoch = e.epoch ∧ t.loader = e.loader
      (x.queue = [] → x.st ≠ .loading → exec (.hopFlush r channel) s =
        .next (e.replied r .hopFlush [channel] [0x00#8, 0#8])) ∧
      (x.queue ≠ [] → x.st = .idle ∨ x.st = .dwell ∨ x.st.isEnding = true ∨ x.st = .waiting →
        ∃ t : State, flushed t ∧ alone t ∧ t.reports = e.reports ∧
        (∀ i, (t.slot i).reserved = (e.slot i).reserved) ∧
        t.chan c = if x.st = .waiting then { x with queue := [], ready := false, timer := none }
          else { x with queue := [] }) ∧
      (∀ k : LoadCtx, x.st = .loading → e.loader.ctx = some k → k.chan = c →
        ∃ t : State, flushed t ∧ t.chan c = { x with queue := [], st := .idle } ∧
        t.chan (chanOther c) = e.chan (chanOther c) ∧ t.epoch = e.epoch ∧
        t.loader = { e.loader with ctx := none, staging := [] } ∧
        (∀ i, (t.slot i).reserved = false) ∧ t.reports =
          (e.reports.make (.channelState c .idle)).make (.loadDone k.seq c k.area .cancelled 0xFF#8)) ∧
      (x.queue ≠ [] → x.st = .switching → x.selfHead = true → ∃ t : State, flushed t ∧ alone t ∧
        t.reports = e.reports ∧ t.chan c = { x with queue := [] }) ∧
      (x.queue ≠ [] → x.st = .overstay ∨ x.st = .switching → ∃ w u t : State,
        exec (.hopFlush r channel) s = .next (State.replied t r .hopFlush [channel]
          [0x00#8, b8 x.queue.length]) ∧
        (∀ i, w.slot i = { e.slot i with
          pins := (e.slot i).pins - x.queue.countP fun q => q.slot == i }) ∧
        (x.st = .overstay → x.selfHead = true → ∀ old, x.cfg.cycle = true → x.cur = some old →
          w = { e.setChan c { x with queue := [] } with slots := w.slots } ∧
          Evaluated w t c old [] false) ∧
        (x.st = .overstay → x.selfHead = false →
          w = { e.setChan c
            { x with queue := [], ready := false, timer := none, edgeDue := x.edgeDue && !x.cfg.cycle }
            with slots := w.slots } ∧
          HeadRemoved w t c false) ∧
        (x.st = .switching → x.selfHead = false →
          w = { e.setChan c { x with queue := [], ready := false, timer := none, st := .overstay } with
            slots := w.slots, reports := e.reports.make (.channelState c .overstay) } ∧
          HeadRemoved w u c (HoldSet.isEmpty { x.gate.hold with blank := false }) ∧ BlankDropped u t c))

/-- QUEUE_GET (R37): fields out of range are BAD_VALUE; otherwise the queue length and the entries from
`first` on, at most `count` of them, as encoded in Table 7-10. Nothing changes. -/
def Obligations.QueueGetReads : Prop :=
  ∀ (s : State) (r : Req) (channel first count : Byte), s.takes r .queueGet [channel, first, count] →
    let e := s.frameEnds r.pins
    (chanOf channel = none ∨ 63 < first.toNat ∨ count.toNat = 0 ∨ 8 < count.toNat →
      exec (.queueGet r channel first count) s =
        .next (e.replied r .queueGet [channel, first, count] [0x11#8])) ∧
    ∀ c : Chan, chanOf channel = some c → first.toNat ≤ 63 → 1 ≤ count.toNat → count.toNat ≤ 8 →
      exec (.queueGet r channel first count) s =
        .next (e.replied r .queueGet [channel, first, count]
          (0x00#8 :: b8 (e.chan c).queue.length ::
            b8 (min count.toNat ((e.chan c).queue.length - first.toNat)) ::
            (((e.chan c).queue.drop first.toNat).take count.toNat).flatMap encodeEntry))

/-! The hop engine. -/

/-- START (R66): BAD_VALUE, CHANNEL_BUSY in LOADING, NOT_IDLE elsewhere outside IDLE. On an IDLE channel with an
empty queue it gives WAITING; with a head it gives WAITING with its report and evaluates the head, whatever its
trigger (`Evaluated`: R51, R57, R75): an AFTER head, or a TIME head whose value the count has reached or passed,
starts at once with the reports of its start, a LINE head and a TIME head still to come are waited on, and a
PAIRED head makes the channel ready. The reply carries the state after it. A start and a comparison with the
epoch count take an epoch event of the period first, and the reports are in the model's order (assumption logs 10,
22). -/
def Obligations.StartTaken : Prop :=
  ∀ (s : State) (r : Req) (channel : Byte), s.takes r .start [channel] →
    let e := s.frameEnds r.pins
    (chanOf channel = none → exec (.start r channel) s =
      .next (e.replied r .start [channel] [0x11#8])) ∧
    ∀ c : Chan, chanOf channel = some c →
      ((e.chan c).st = .loading → exec (.start r channel) s =
        .next (e.replied r .start [channel] [0x24#8])) ∧
      ((e.chan c).st ≠ .loading → (e.chan c).st ≠ .idle → exec (.start r channel) s =
        .next (e.replied r .start [channel] [0x25#8])) ∧
      ((e.chan c).st = .idle → (e.chan c).queue = [] →
        ∃ t : State, exec (.start r channel) s = .next (t.replied r .start [channel] [0x00#8, 2#8]) ∧
          t.chan c = { e.chan c with st := .waiting, stopAtEnd := false } ∧
          t.chan (chanOther c) = e.chan (chanOther c) ∧ t.slots = e.slots ∧ t.epoch = e.epoch ∧
          t.reports = e.reports.make (.channelState c .waiting) ∧ t.store = e.store ∧
          t.loader = e.loader ∧ t.link = e.link) ∧
      (∀ hop rest, (e.chan c).st = .idle → (e.chan c).queue = hop :: rest →
        let w := State.report (e.setChan c
          { e.chan c with st := .waiting, stopAtEnd := false, selfHead := false }) (.channelState c .waiting)
        ∃ t : State, exec (.start r channel) s =
            .next (t.replied r .start [channel] [0x00#8, chanStateCode (t.chan c).st]) ∧
          t.store = e.store ∧ t.loader = e.loader ∧ t.link = e.link ∧ Evaluated w t c hop rest false)

/-- STOP by channel state (R67, Table 3-6), `now` telling NOW from AT_END. On the way to ENDING
(`EndingEntered`: R63, R64) an OPEN or OPENING gate closes from where it stands (R92) or at once without a ramp
(R95); where it is CLOSED, ENDING completes at once: the hop is released, or in cycle mode rejoins the queue
(R39). A gate at gain 0 whose arrival is due is not CLOSED yet, so that a STOP ahead of it in SWITCHING is
answered with ENDING (R68 leaves that answer open: the model's choice, assumption log 39). In LOADING the load
is cancelled (R179). On the way to ENDING CHANNEL_STATE is made before GATE_STATE (the model's order, assumption
log 22). Where ENDING completes at once, the accumulator keeps what it has moved to in this period (assumption
log 43). -/
def Obligations.StopByState : Prop :=
  ∀ (s : State) (r : Req) (channel : Byte) (now : Bool),
    let i : Instr := if now then .stopNow r channel else .stopAtEnd r channel
    let p : List Byte := [channel, if now then 1#8 else 0#8]
    s.takes r .stop p →
    let e := s.frameEnds r.pins
    (chanOf channel = none → exec i s = .next (e.replied r .stop p [0x11#8])) ∧
    ∀ c : Chan, chanOf channel = some c →
      ((e.chan c).st = .idle → exec i s =
        .next (e.replied r .stop p [0x00#8, 0#8])) ∧
      ((e.chan c).st = .ending .idle → exec i s =
        .next (e.replied r .stop p [0x00#8, 6#8])) ∧
      ((e.chan c).st = .dwell → now = false → ∃ t : State,
        exec i s = .next (t.replied r .stop p [0x00#8, 3#8]) ∧
        t = e.setChan c { e.chan c with stopAtEnd := true }) ∧
      ((e.chan c).st = .waiting → ∃ t : State,
        exec i s = .next (t.replied r .stop p [0x00#8, 0#8]) ∧
        t.chan c = { e.chan c with st := .idle, ready := false, timer := none } ∧
        t.chan (chanOther c) = e.chan (chanOther c) ∧ t.slots = e.slots ∧
        t.reports = e.reports.make (.channelState c .idle)) ∧
      ((e.chan c).st = .ending .waiting → ∃ t : State,
        exec i s = .next (t.replied r .stop p [0x00#8, 6#8]) ∧
        t.chan c = { e.chan c with st := .ending .idle } ∧
        t.chan (chanOther c) = e.chan (chanOther c) ∧ t.slots = e.slots ∧
        t.reports = e.reports.make (.channelState c (.ending .idle))) ∧
      (((e.chan c).st = .dwell ∧ now = true) ∨ (e.chan c).st = .overstay ∨
          (e.chan c).st = .switching →
        let w := if (e.chan c).st = .dwell then e
          else e.setChan c { e.chan c with ready := false, timer := none }
        ∃ t : State, exec i s = .next (t.replied r .stop p [0x00#8, chanStateCode (t.chan c).st]) ∧
          t.store = e.store ∧ t.loader = e.loader ∧ t.link = e.link ∧ EndingEntered w t c .idle) ∧
      (∀ k : LoadCtx, (e.chan c).st = .loading → e.loader.ctx = some k → k.chan = c →
        ∃ t : State, exec i s = .next (t.replied r .stop p [0x00#8, 0#8]) ∧
          t.chan c = { e.chan c with st := .idle } ∧
          t.chan (chanOther c) = e.chan (chanOther c) ∧
          t.loader = { e.loader with ctx := none, staging := [] } ∧ t.store = e.store ∧
          (∀ j, t.slot j = { e.slot j with reserved := false }) ∧
          t.reports = (e.reports.make (.channelState c .idle)).make
            (.loadDone k.seq c k.area .cancelled 0xFF#8))

/-- CHANNEL_CONFIG (R71, R102): the checks in their order, and on an IDLE channel with an empty queue, whose
gate is CLOSED under NO_HOP, the
whole configuration with the LINE reason it gives. LINE
goes by the sample the gates took last, also where a newer one has not been taken yet, while R102 speaks of the
last sample (the model's choice, assumption log 30). -/
def Obligations.ChannelConfigTaken : Prop :=
  ∀ (s : State) (r : Req) (channel policy cycle edge : Byte) (ramp : BitVec 16) (follow : Byte)
    (pairTimeout : BitVec 24),
    let i : Instr := .channelConfig r channel policy cycle edge ramp follow pairTimeout
    let p := channelConfigPayload channel policy cycle edge ramp follow pairTimeout
    s.takes r .channelConfig p →
    let e := s.frameEnds r.pins
    (chanOf channel = none →
      exec i s = .next (e.replied r .channelConfig p [0x11#8])) ∧
    ∀ c : Chan, chanOf channel = some c →
      ((e.chan c).st = .loading →
        exec i s = .next (e.replied r .channelConfig p [0x24#8])) ∧
      ((e.chan c).st ≠ .loading → ((e.chan c).st ≠ .idle ∨ (e.chan c).queue ≠ []) →
        exec i s = .next (e.replied r .channelConfig p [0x25#8])) ∧
      ((e.chan c).st = .idle → (e.chan c).queue = [] →
        (2 < policy.toNat ∨ 1 < cycle.toNat ∨ 2 < edge.toNat ∨ 1023 < ramp.toNat ∨ 1 < follow.toNat) →
        exec i s = .next (e.replied r .channelConfig p [0x11#8])) ∧
      (∀ (pol : Policy) (cy : Bool) (ed : EdgeKind) (fo : Bool), policyCode pol = policy →
        boolCode cy = cycle → edgeCode ed = edge → ramp.toNat ≤ 1023 → boolCode fo = follow →
        (e.chan c).st = .idle → (e.chan c).queue = [] → (e.chan c).gate.st = .closed →
        (e.chan c).gate.hold.noHop = true →
        ∃ t : State, exec i s = .next (t.replied r .channelConfig p [0x00#8]) ∧
          (t.chan c).cfg =
            { policy := pol, cycle := cy, edge := ed, ramp := ramp.toNat, follow := fo,
              pairTimeout := pairTimeout.toNat } ∧
          (t.chan c).st = .idle ∧ (t.chan c).queue = [] ∧ (t.chan c).cur = (e.chan c).cur ∧
          (t.chan c).acc = (e.chan c).acc ∧ (t.chan c).trigLevel = (e.chan c).trigLevel ∧
          (t.chan c).gate.st = .closed ∧ (t.chan c).gate.gain = (e.chan c).gate.gain ∧
          (t.chan c).gate.hold = { (e.chan c).gate.hold with line := fo && e.gateLine } ∧
          t.chan (chanOther c) = e.chan (chanOther c) ∧ t.slots = e.slots ∧ t.epoch = e.epoch ∧
          t.reports = e.reports ∧ t.store = e.store ∧ t.loader = e.loader ∧
          t.link = e.link)

/-- CHANNEL_GET (R72): the body of Table 7-9, and nothing changes. A timer that has reached 0 and whose expiry has
not been taken reads READY_TIMED with 0 periods, where R74 gives 1 and more (deduced, assumption log 32), and a gate
whose arrival has not been taken reads CLOSING with gain 0 or OPENING with gain 1,024 (the model's choice, assumption
log 44). -/
def Obligations.ChannelGetReads : Prop :=
  ∀ (s : State) (r : Req) (channel : Byte), s.takes r .channelGet [channel] →
    let e := s.frameEnds r.pins
    (chanOf channel = none → exec (.channelGet r channel) s =
      .next (e.replied r .channelGet [channel] [0x11#8])) ∧
    ∀ c : Chan, chanOf channel = some c → exec (.channelGet r channel) s =
      .next (e.replied r .channelGet [channel]
        ([0x00#8, chanStateCode (e.chan c).st, b8 (e.chan c).queue.length] ++
          be24 (BitVec.ofNat 24 (e.chan c).dwell) ++
          [boolCode (e.chan c).stopAtEnd, gateStateCode (e.chan c).gate.st,
            holdCode (e.chan c).gate.hold] ++
          be16 (BitVec.ofNat 16 (e.chan c).gate.gain) ++
          [policyCode (e.chan c).cfg.policy, boolCode (e.chan c).cfg.cycle,
            edgeCode (e.chan c).cfg.edge] ++
          be16 (BitVec.ofNat 16 (e.chan c).cfg.ramp) ++ [boolCode (e.chan c).cfg.follow] ++
          be24 (BitVec.ofNat 24 (e.chan c).cfg.pairTimeout) ++
          (match (e.chan c).ready, (e.chan c).timer with
            | false, _ => [0#8, 0#8, 0#8, 0#8]
            | true, none => [1#8, 0#8, 0#8, 0#8]
            | true, some n => 2#8 :: be24 (BitVec.ofNat 24 n)) ++
          (match (e.chan c).cur with
            | none => [0#8]
            | some hop => 1#8 :: encodeEntry hop)))

/-- GATE (R100): HOLD adds HOST and RELEASE removes it. With a ramp (R92, R93) a gate that nothing held begins
to close where it stands, or is CLOSED at once from OPENING at gain 0; one that loses its last reason begins to
open, or is OPEN at once from CLOSING at gain 1,024. Without a ramp each move is made at once (R95). A channel
ready in OVERSTAY on a blank PAIRED head takes BLANK for the reason that leaves, and enters SWITCHING (R77). In
SWITCHING and ENDING, where a reason holds the gate already, HOST joins and nothing moves (R88). Nothing else
changes but the report. A gate whose arrival has not been taken stands at its target and still moving (the
model's choice, assumption log 44). -/
def Obligations.GateRequests : Prop :=
  ∀ (s : State) (r : Req) (channel : Byte),
    let e := s.frameEnds r.pins
    (chanOf channel = none →
      (s.takes r .gate [channel, 0#8] → exec (.gateHold r channel) s =
        .next (e.replied r .gate [channel, 0#8] [0x11#8])) ∧
      (s.takes r .gate [channel, 1#8] → exec (.gateRelease r channel) s =
        .next (e.replied r .gate [channel, 1#8] [0x11#8]))) ∧
    ∀ c : Chan, chanOf channel = some c → (e.chan c).gate.lawful = true →
      let g := (e.chan c).gate
      let body := fun t : State => [0x00#8, gateStateCode (t.chan c).gate.st,
        holdCode (t.chan c).gate.hold] ++ be16 (BitVec.ofNat 16 (t.chan c).gate.gain)
      let frame := fun t : State => { t.chan c with gate := g } = e.chan c ∧
        t.chan (chanOther c) = e.chan (chanOther c) ∧ t.slots = e.slots ∧ t.epoch = e.epoch ∧
        t.store = e.store ∧ t.loader = e.loader ∧ t.link = e.link ∧
        t.reports = (if (t.chan c).gate.st = g.st then e.reports
          else e.reports.make (.gateState c (t.chan c).gate.st (t.chan c).gate.hold))
      (s.takes r .gate [channel, 0#8] →
        ((e.chan c).st ≠ .switching ∧ (e.chan c).st.isEnding = false) ∨ g.hold.isEmpty = false →
        ∃ t : State, exec (.gateHold r channel) s =
            .next (t.replied r .gate [channel, 0#8] (body t)) ∧ frame t ∧
          (t.chan c).gate.hold = { g.hold with host := true } ∧
          (t.chan c).gate.st = (if g.hold.isEmpty = false then g.st
            else if (e.chan c).cfg.ramp = 0 ∨ g.gain = 0 then .closed else .closing) ∧
          (t.chan c).gate.gain =
            (if g.hold.isEmpty = true ∧ (e.chan c).cfg.ramp = 0 then 0 else g.gain)) ∧
      (s.takes r .gate [channel, 1#8] →
        ((e.chan c).readyBlankOverstay = false ∨ g.hold ≠
          { host := true, line := false, blank := false, ending := false, noHop := false }) →
        ∃ t : State, exec (.gateRelease r channel) s =
            .next (t.replied r .gate [channel, 1#8] (body t)) ∧ frame t ∧
          (t.chan c).gate.hold = { g.hold with host := false } ∧
          (t.chan c).gate.st =
            (if g.hold.isEmpty = true ∨ (t.chan c).gate.hold.isEmpty = false then g.st
            else if (e.chan c).cfg.ramp = 0 ∨ g.gain = 1024 then .opened else .opening) ∧
          (t.chan c).gate.gain = (if g.hold.isEmpty = false ∧ (t.chan c).gate.hold.isEmpty = true ∧
            (e.chan c).cfg.ramp = 0 then 1024 else g.gain)) ∧
      (s.takes r .gate [channel, 1#8] → (e.chan c).readyBlankOverstay = true →
        g.hold = { host := true, line := false, blank := false, ending := false, noHop := false } →
        ∃ t : State, exec (.gateRelease r channel) s =
            .next (t.replied r .gate [channel, 1#8] (body t)) ∧
          (t.chan c).gate.hold =
            { host := false, line := false, blank := true, ending := false, noHop := false } ∧
          (t.chan c).gate.st = g.st ∧ (t.chan c).gate.gain = g.gain ∧ (t.chan c).st = .switching ∧
          { t.chan c with gate := g, st := .overstay } = e.chan c ∧
          t.chan (chanOther c) = e.chan (chanOther c) ∧ t.slots = e.slots ∧ t.epoch = e.epoch ∧
          t.store = e.store ∧ t.loader = e.loader ∧ t.link = e.link ∧
          t.reports = e.reports.make (.channelState c .switching))

/-- REPORT_CONFIG (R147): a mask with a bit outside the maskable kinds is BAD_VALUE; any other becomes the
mask, and nothing else changes. -/
def Obligations.ReportConfigSets : Prop :=
  ∀ (s : State) (r : Req) (mask : BitVec 16), s.takes r .reportConfig (be16 mask) →
    let e := s.frameEnds r.pins
    (mask &&& 0xFB01#16 ≠ 0#16 → exec (.reportConfig r mask) s =
      .next (e.replied r .reportConfig (be16 mask) [0x11#8])) ∧
    (mask &&& 0xFB01#16 = 0#16 → exec (.reportConfig r mask) s =
      .next (State.replied { e with reports := { e.reports with mask := mask } }
        r .reportConfig (be16 mask) (0x00#8 :: be16 mask)))

/-! The profile store. -/

/-- The requests that change an area (R153, R154, R157 to R160, R162): a field out of range is BAD_VALUE before
everything else (Table 9-6). With the engine IDLE: the other refusals of Table 9-6 in their order, and, with WP
low, the answer STARTED, the marker and the operation the engine takes; no byte and nothing else changes. -/
def Obligations.StoreRequestsTaken : Prop :=
  (∀ (s : State) (r : Req) (area : Byte),
    let e := s.frameEnds r.pins
    (8 ≤ area.toNat → s.takes r .storeErase [area] →
      exec (.storeErase r area) s = .next (e.replied r .storeErase [area] [0x11#8])) ∧
    (∀ (chunk : Byte) (data : List Byte), 8 ≤ area.toNat ∨ 62 ≤ chunk.toNat →
      s.takes r .storeWrite (area :: chunk :: data) → exec (.storeWrite r area chunk data) s =
        .next (e.replied r .storeWrite (area :: chunk :: data) [0x11#8])) ∧
    (∀ au c sa : Byte, 8 ≤ area.toNat ∨ 2 ≤ au.toNat ∨ 2 ≤ c.toNat ∨ 2 ≤ sa.toNat →
      s.takes r .storeCommit [area, au, c, sa] → exec (.storeCommit r area au c sa) s =
        .next (e.replied r .storeCommit [area, au, c, sa] [0x11#8])) ∧
    (8 ≤ area.toNat → s.takes r .storeRevoke [area] →
      exec (.storeRevoke r area) s = .next (e.replied r .storeRevoke [area] [0x11#8]))) ∧
  ∀ (s : State) (r : Req) (area : Byte) (a : Fin 8), a.val = area.toNat →
    let e := s.frameEnds r.pins
    e.store.engine = .idle →
    let d := e.store.dir a
    let begun := fun (d' : Dir) (engine : EngineState) (op : StoreOp) =>
      { e with
        store := { e.store with dirs := e.store.dirs.set a.val d' a.isLt, engine := engine, op := some op } }
    (s.takes r .storeErase [area] →
      let answers := fun (t : State) (body : List Byte) =>
        exec (.storeErase r area) s = .next (t.replied r .storeErase [area] body)
      (20000 ≤ d.eraseCount →
        answers e (0x34#8 :: be16 (BitVec.ofNat 16 d.eraseCount))) ∧
      (d.eraseCount < 20000 → r.pins.wp = true → answers e [0x31#8]) ∧
      (d.eraseCount < 20000 → r.pins.wp = false →
        answers (begun { d with eraseCount := d.eraseCount + 1, marker := .erasing } .erasing
          (.erase a r.seq)) (0x01#8 :: be16 (BitVec.ofNat 16 (d.eraseCount + 1))))) ∧
    (∀ (chunk : Byte) (data : List Byte), s.takes r .storeWrite (area :: chunk :: data) →
      let answers := fun (t : State) (body : List Byte) => exec (.storeWrite r area chunk data) s =
        .next (t.replied r .storeWrite (area :: chunk :: data) body)
      (62 ≤ chunk.toNat → answers e [0x11#8]) ∧
      (chunk.toNat ≤ 61 → d.st = .valid ∨ d.st = .damaged → answers e [0x32#8]) ∧
      (chunk.toNat ≤ 61 → d.st = .blank ∨ d.st = .opened →
        (chunk.toNat ∈ d.written → answers e [0x33#8]) ∧
        (chunk.toNat ∉ d.written → r.pins.wp = true → answers e [0x31#8]) ∧
        (chunk.toNat ∉ d.written → r.pins.wp = false →
          answers (begun { d with marker := .writing } .writing (.write a r.seq chunk.toNat data))
            [0x01#8]))) ∧
    (∀ (au : Bool) (c : Chan) (sa : Bool),
      s.takes r .storeCommit [area, boolCode au, chanCode c, boolCode sa] →
      let answers := fun (t : State) (body : List Byte) =>
        exec (.storeCommit r area (boolCode au) (chanCode c) (boolCode sa)) s =
          .next (t.replied r .storeCommit [area, boolCode au, chanCode c, boolCode sa] body)
      (d.st ≠ .opened → answers e [0x32#8]) ∧
      (d.st = .opened → r.pins.wp = true → answers e [0x31#8]) ∧
      (d.st = .opened → r.pins.wp = false →
        answers (begun d .committing (.commit a r.seq au c sa none)) [0x01#8])) ∧
    (s.takes r .storeRevoke [area] →
      let answers := fun (t : State) (body : List Byte) =>
        exec (.storeRevoke r area) s = .next (t.replied r .storeRevoke [area] body)
      (d.st ≠ .valid ∨ d.revoked = true ∨ (∀ rec, d.commit = some rec → rec.autostart = false) →
        answers e [0x32#8]) ∧
      (∀ rec : CommitRec, d.st = .valid → d.revoked = false → d.commit = some rec →
        rec.autostart = true →
        (r.pins.wp = true → answers e [0x31#8]) ∧
        (r.pins.wp = false → answers (begun { d with marker := .revoking } .revoking (.revoke a r.seq))
          [0x01#8])))

/-- While the engine is not IDLE, each store request and LOAD with fields in range is refused STORE_BUSY and
changes nothing (R155). -/
def Obligations.StoreBusyRefuses : Prop :=
  ∀ (s : State) (r : Req) (area : Byte), area.toNat < 8 →
    let e := s.frameEnds r.pins
    e.store.engine ≠ .idle →
    (s.takes r .storeErase [area] → exec (.storeErase r area) s =
      .next (e.replied r .storeErase [area] [0x30#8])) ∧
    (∀ chunk data, chunk.toNat ≤ 61 → s.takes r .storeWrite (area :: chunk :: data) →
      exec (.storeWrite r area chunk data) s =
        .next (e.replied r .storeWrite (area :: chunk :: data) [0x30#8])) ∧
    (∀ (au : Bool) (c : Chan) (sa : Bool),
      s.takes r .storeCommit [area, boolCode au, chanCode c, boolCode sa] →
      exec (.storeCommit r area (boolCode au) (chanCode c) (boolCode sa)) s =
        .next (e.replied r .storeCommit
          [area, boolCode au, chanCode c, boolCode sa] [0x30#8])) ∧
    (s.takes r .storeRevoke [area] → exec (.storeRevoke r area) s =
      .next (e.replied r .storeRevoke [area] [0x30#8])) ∧
    (∀ (offset : BitVec 16) (n : Byte), s.takes r .storeRead (area :: be16 offset ++ [n]) →
      1 ≤ n.toNat → n.toNat ≤ 200 → offset.toNat + n.toNat ≤ 4096 →
      exec (.storeRead r area offset n) s =
        .next (e.replied r .storeRead (area :: be16 offset ++ [n]) [0x30#8])) ∧
    (s.takes r .storeBlank [area] → exec (.storeBlank r area) s =
      .next (e.replied r .storeBlank [area] [0x30#8])) ∧
    (∀ first last : Byte, s.takes r .storeDigest [area, first, last] →
      first.toNat ≤ last.toNat → last.toNat ≤ 63 → exec (.storeDigest r area first last) s =
        .next (e.replied r .storeDigest [area, first, last] [0x30#8])) ∧
    (s.takes r .storeInfo [] → exec (.storeInfo r) s =
      .next (e.replied r .storeInfo [] [0x30#8])) ∧
    (∀ (c : Chan) (st : Bool), s.takes r .load [area, chanCode c, boolCode st] →
      exec (.load r area (chanCode c) (boolCode st)) s =
        .next (e.replied r .load [area, chanCode c, boolCode st] [0x30#8]))

/-- The reading requests (R163 to R166): a field out of range is BAD_VALUE. With the engine IDLE: the bytes, the
first byte that is not erased, the CRC of a run of chunks, and the directory; nothing changes. A byte of a BLANK
or OPEN area that loss of retention has changed is read as changed, where R163 and R164 give an unwritten chunk
0xFF and a BLANK area as blank (the model's choice, assumption log 45). -/
def Obligations.StoreReadingAnswers : Prop :=
  (∀ (s : State) (r : Req) (area : Byte),
    let e := s.frameEnds r.pins
    (∀ (offset : BitVec 16) (n : Byte), 8 ≤ area.toNat ∨ n.toNat = 0 ∨ 200 < n.toNat ∨
        4096 < offset.toNat + n.toNat → s.takes r .storeRead (area :: be16 offset ++ [n]) →
      exec (.storeRead r area offset n) s =
        .next (e.replied r .storeRead (area :: be16 offset ++ [n]) [0x11#8])) ∧
    (8 ≤ area.toNat → s.takes r .storeBlank [area] →
      exec (.storeBlank r area) s = .next (e.replied r .storeBlank [area] [0x11#8])) ∧
    (∀ first last : Byte, 8 ≤ area.toNat ∨ 63 < first.toNat ∨ 63 < last.toNat ∨
        last.toNat < first.toNat → s.takes r .storeDigest [area, first, last] →
      exec (.storeDigest r area first last) s =
        .next (e.replied r .storeDigest [area, first, last] [0x11#8]))) ∧
  ∀ (s : State) (r : Req),
    let e := s.frameEnds r.pins
    e.store.engine = .idle →
    (∀ (area : Byte) (a : Fin 8) (offset : BitVec 16) (n : Byte), a.val = area.toNat →
      s.takes r .storeRead (area :: be16 offset ++ [n]) → 1 ≤ n.toNat → n.toNat ≤ 200 →
      offset.toNat + n.toNat ≤ 4096 → exec (.storeRead r area offset n) s =
        .next (e.replied r .storeRead (area :: be16 offset ++ [n])
          (0x00#8 :: be16 offset ++ n ::
            (List.range n.toNat).map fun i => memRead e.store.mem (4096 * a.val + offset.toNat + i)))) ∧
    (∀ (area : Byte) (a : Fin 8), a.val = area.toNat → s.takes r .storeBlank [area] →
      ((∀ i, i < 4096 → memRead e.store.mem (4096 * a.val + i) = 0xFF#8) →
        exec (.storeBlank r area) s =
          .next (e.replied r .storeBlank [area] [0x00#8, 0#8, 0#8, 0#8])) ∧
      (∀ i, i < 4096 → memRead e.store.mem (4096 * a.val + i) ≠ 0xFF#8 →
        (∀ j, j < i → memRead e.store.mem (4096 * a.val + j) = 0xFF#8) →
        exec (.storeBlank r area) s =
          .next (e.replied r .storeBlank [area]
            (0x00#8 :: 1#8 :: be16 (BitVec.ofNat 16 i))))) ∧
    (∀ (area first last : Byte) (a : Fin 8), a.val = area.toNat →
      s.takes r .storeDigest [area, first, last] → first.toNat ≤ last.toNat → last.toNat ≤ 63 →
      exec (.storeDigest r area first last) s =
        .next (e.replied r .storeDigest [area, first, last]
          (0x00#8 :: be16 (crc16 ((List.range (64 * (last.toNat - first.toNat + 1))).map fun i =>
            memRead e.store.mem (4096 * a.val + 64 * first.toNat + i)))))) ∧
    (s.takes r .storeInfo [] → exec (.storeInfo r) s =
      .next (e.replied r .storeInfo []
        (0x00#8 :: e.store.dirs.toList.flatMap fun d =>
          [areaStateCode d.st] ++ be16 (BitVec.ofNat 16 d.eraseCount) ++ [b8 d.written.length] ++
            match d.st, d.commit with
            | .valid, some rec => [BitVec.ofNat 8 (rec.autostart.toNat + 2 * d.revoked.toNat +
                4 * rec.startAfter.toNat), chanCode rec.chan]
            | _, _ => [0#8, 0#8])))

/-- The completions of the store's operations (R150, R153, R156, R158 to R160, R162): the bytes they leave, the
directory record, the operation ended, and STORE_DONE made, which goes to the completion place (KeepJoins);
nothing else changes before the arbiter's choice (`State.finish`, ArbiterOrder), on a free line the departure of
that report. A chunk write keeps the record's commit and revoked fields. A completion whose operation is not in
progress changes nothing (assumption log 7). The bytes take their values in the event, and a revoke record
carries the image CRC of the directory's record (the model's choices, assumption logs 40, 42). -/
def Obligations.StoreCompletions : Prop :=
  ∀ (s : State) (a : Fin 8) (seq : Byte), Memory.wf s.store.mem = true →
    let ended := fun (t : State) (kind : StoreKind) =>
      { s with
        store := { s.store with mem := t.store.mem, dirs := t.store.dirs, op := none },
        reports := s.reports.make (.storeDone seq kind a .ok 0#8 0#16) }
    (s.store.op = some (.erase a seq) → ∃ t : State, exec .eraseComplete s = .next t.finish ∧
      (∀ x, memRead t.store.mem x =
        if 4096 * a.val ≤ x ∧ x < 4096 * a.val + 4096 then 0xFF#8 else memRead s.store.mem x) ∧
      t.store.dirs = s.store.dirs.set a.val
        { s.store.dir a with st := .blank, marker := .none, written := [], commit := none,
                             revoked := false } a.isLt ∧
      t = ended t .erase) ∧
    (∀ (chunk : Nat) (data : List Byte), s.store.op = some (.write a seq chunk data) →
      ∃ t : State, exec .writeComplete s = .next t.finish ∧
      (∀ x, memRead t.store.mem x =
        if 4096 * a.val + 64 * chunk ≤ x ∧ x < 4096 * a.val + 64 * chunk + data.length
        then data.getD (x - (4096 * a.val + 64 * chunk)) 0xFF#8 else memRead s.store.mem x) ∧
      (∀ d, d ≠ a → t.store.dir d = s.store.dir d) ∧ t.store.dir a =
        { s.store.dir a with st := .opened, marker := .none, written := (t.store.dir a).written } ∧
      (∀ n, n ∈ (t.store.dir a).written ↔ n = chunk ∨ n ∈ (s.store.dir a).written) ∧
      t = ended t .write) ∧
    (∀ (au : Bool) (c : Chan) (sa : Bool) (rec : CommitRec),
      s.store.op = some (.commit a seq au c sa (some rec)) →
      ∃ t : State, exec .commitComplete s = .next t.finish ∧
      (∀ x, memRead t.store.mem x =
        if 4096 * a.val + 3968 ≤ x ∧ x < 4096 * a.val + 4032
        then (commitRecordBytes rec).getD (x - (4096 * a.val + 3968)) 0xFF#8
        else memRead s.store.mem x) ∧
      t.store.dirs = s.store.dirs.set a.val
        { s.store.dir a with st := .valid, marker := .none, commit := some rec, revoked := false }
        a.isLt ∧
      t = ended t .commit) ∧
    (∀ rec : CommitRec, s.store.op = some (.revoke a seq) → (s.store.dir a).commit = some rec →
      ∃ t : State, exec .revokeComplete s = .next t.finish ∧
      (∀ x, memRead t.store.mem x =
        if 4096 * a.val + 4032 ≤ x ∧ x < 4096 * a.val + 4096
        then (revokeRecordBytes rec.imageCrc).getD (x - (4096 * a.val + 4032)) 0xFF#8
        else memRead s.store.mem x) ∧
      t.store.dirs = s.store.dirs.set a.val { s.store.dir a with marker := .none, revoked := true }
        a.isLt ∧
      t = ended t .revoke) ∧
    ((∀ b q, s.store.op ≠ some (.erase b q)) → exec .eraseComplete s = .next s) ∧
    ((∀ b q n d, s.store.op ≠ some (.write b q n d)) → exec .writeComplete s = .next s) ∧
    ((∀ b q au c sa rec, s.store.op ≠ some (.commit b q au c sa (some rec))) →
      exec .commitComplete s = .next s) ∧
    ((∀ b q, s.store.op ≠ some (.revoke b q)) → exec .revokeComplete s = .next s) ∧
    ((∀ b q au c sa, s.store.op ≠ some (.commit b q au c sa none)) → exec .validation s = .next s) ∧
    ((∀ cause, s.store.op ≠ some (.scan cause)) → exec .scanComplete s = .next s)

/-- Validation (R160, R161): an image that passes every test gives the COMMITTING marker and the record of its
header, its slots and the request's three fields; one that fails leaves the area as it was and reports
IMAGE_INVALID with the reason and offset. No byte changes, and nothing else does before the arbiter's choice
(`State.finish`, ArbiterOrder). The ten tests of Table 9-7 in their order: the first that fails gives its
reason, at offset 0 for 1 to 5, and at its own record for a slot record (6 to 8) or a hop record (9, 10); an
image that fails none gives its slots and hops, each with every field of its record (Tables 7-14, 7-15, R135): a
slot's index, word, offset and label, and a hop's slot, dwell, amplitude, mode, trigger with its time, blank,
report and tag. That the image is read as it stands in this event is the model's choice (assumption log 41). So
is that an unwritten chunk which loss of retention has changed is read as changed, where R159 gives it 0xFF
(assumption log 45). -/
def Obligations.ValidationOutcomes : Prop :=
  (∀ (s : State) (a : Fin 8) (seq : Byte) (au : Bool) (c : Chan) (sa : Bool),
    s.store.op = some (.commit a seq au c sa none) →
    (∀ p : Program, validateImage (s.store.areaByte a) = .ok p →
      ∃ rec : CommitRec, exec .validation s = .next (State.finish { s with
          store := { s.store with
            engine := .committing, op := some (.commit a seq au c sa (some rec)),
            dirs := s.store.dirs.set a.val { s.store.dir a with marker := .committing } a.isLt } }) ∧
        rec.imageLength = u16At (s.store.areaByte a) 6 ∧ rec.imageCrc = u16At (s.store.areaByte a) 14 ∧
        rec.slotCount = s.store.areaByte a 3 ∧ rec.hopCount = s.store.areaByte a 4 ∧
        rec.autostart = au ∧ rec.chan = c ∧ rec.startAfter = sa ∧
        (∀ n : Fin 48, rec.slotUse.getLsbD n.val = decide (n ∈ p.slots.map Prod.fst))) ∧
    (∀ reason offset, validateImage (s.store.areaByte a) = .error (reason, offset) →
      exec .validation s = .next (State.finish { s with
        store := { s.store with op := none },
        reports := s.reports.make
          (.storeDone seq .commit a .imageInvalid (b8 reason) (BitVec.ofNat 16 offset)) }))) ∧
  ∀ img : Nat → Byte,
    let slots := (img 3).toNat
    let hops := (img 4).toNat
    let magic := img 0 = 0x47#8 ∧ img 1 = 0x57#8
    let counts := slots ≤ 48 ∧ 1 ≤ hops ∧ hops ≤ 64
    let sized := (u16At img 6).toNat = 16 + 16 * (slots + hops)
    let summed := imageCrc img (u16At img 6).toNat = u16At img 14
    let slotAt := fun i => 16 + 16 * i
    let hopAt := fun j => 16 + 16 * (slots + j)
    let again := fun i => ∃ j, j < i ∧ img (slotAt j) = img (slotAt i)
    let badTone := fun i => u32At img (slotAt i + 1) = 0#32 ∨ 8 < (img (slotAt i + 7)).toNat ∨
      ∃ n, n < (img (slotAt i + 7)).toNat ∧
        ((img (slotAt i + 8 + n)).toNat < 0x20 ∨ 0x7E < (img (slotAt i + 8 + n)).toNat)
    let slotGood := fun i => (img (slotAt i)).toNat < 48 ∧ ¬again i ∧ ¬badTone i
    let undeclared := fun j => ∀ i, i < slots → img (slotAt i) ≠ img (hopAt j)
    let badHop := fun j => u24At img (hopAt j + 2) = 0#24 ∨ 32767 < (u16At img (hopAt j + 5)).toNat ∨
      (img (hopAt j + 1)).toNat % 4 = 3 ∨
      ((img (hopAt j + 1)).getLsbD 6 = true ↔ (img (hopAt j + 1)).toNat / 4 % 4 ≠ 2)
    (¬magic → validateImage img = .error (1, 0)) ∧
    (magic → img 2 ≠ 1#8 → validateImage img = .error (2, 0)) ∧
    (magic → img 2 = 1#8 → ¬counts → validateImage img = .error (3, 0)) ∧
    (magic → img 2 = 1#8 → counts → ¬sized → validateImage img = .error (4, 0)) ∧
    (magic → img 2 = 1#8 → counts → sized → ¬summed → validateImage img = .error (5, 0)) ∧
    (magic → img 2 = 1#8 → counts → sized → summed →
      (∀ i, i < slots → (∀ j, j < i → slotGood j) →
        (48 ≤ (img (slotAt i)).toNat → validateImage img = .error (6, slotAt i)) ∧
        ((img (slotAt i)).toNat < 48 → again i → validateImage img = .error (7, slotAt i)) ∧
        ((img (slotAt i)).toNat < 48 → ¬again i → badTone i →
          validateImage img = .error (8, slotAt i))) ∧
      ((∀ i, i < slots → slotGood i) →
        (∀ j, j < hops → (∀ h, h < j → ¬undeclared h ∧ ¬badHop h) →
          (undeclared j → validateImage img = .error (9, hopAt j)) ∧
          (¬undeclared j → badHop j → validateImage img = .error (10, hopAt j))) ∧
        ((∀ j, j < hops → ¬undeclared j ∧ ¬badHop j) → ∃ p : Program, validateImage img = .ok p ∧
          p.slots.length = slots ∧ p.hops.length = hops ∧
          (∀ i, i < slots → ∃ k tone, p.slots[i]? = some (k, tone) ∧ k.val = (img (slotAt i)).toNat ∧
            tone.word = u32At img (slotAt i + 1) ∧ tone.offset = u16At img (slotAt i + 5) ∧
            tone.label = if img (slotAt i + 7) = 0#8 then none
              else some ((List.range (img (slotAt i + 7)).toNat).map fun n => img (slotAt i + 8 + n))) ∧
          ∀ j, j < hops → ∃ q, p.hops[j]? = some q ∧ q.slot.val = (img (hopAt j)).toNat ∧
            q.dwell = u24At img (hopAt j + 2) ∧ q.amplitude = u16At img (hopAt j + 5) ∧
            modeCode q.mode = (img (hopAt j + 1)).toNat % 4 ∧
            triggerCode q.trigger = (img (hopAt j + 1)).toNat / 4 % 4 ∧
            triggerTime q.trigger = (if (img (hopAt j + 1)).getLsbD 6 then some (u48At img (hopAt j + 7))
              else none) ∧
            q.blank = (img (hopAt j + 1)).getLsbD 4 ∧ q.report = (img (hopAt j + 1)).getLsbD 5 ∧
            q.tag = if (img (hopAt j + 1)).getLsbD 7 then some (u16At img (hopAt j + 13)) else none)))

/-- A commit record and a revoke record read back as they were written (R136, Tables 7-16, 7-17). -/
def Obligations.RecordsReadBack : Prop :=
  (∀ (rec : CommitRec) (img : Nat → Byte), rec.slotCount = img 3 → rec.hopCount = img 4 →
    slotUseSize rec.slotUse = rec.slotCount.toNat →
    (commitRecordBytes rec).length = 64 ∧
    intactCommit (byteAt (commitRecordBytes rec)) img = some rec) ∧
  ∀ crc other : BitVec 16, (revokeRecordBytes crc).length = 64 ∧
    intactRevoke (byteAt (revokeRecordBytes crc)) other = decide (crc = other)

/-- The end of the scan (R148, R168): a marker makes its area DAMAGED with its parsed record and revoked mark
lost and its written set and erase count kept; an area that is neither marked nor VALID keeps its record; a
VALID one becomes DAMAGED where its commit record is not intact, its image CRC differs, or its chunk 63 is
neither an intact revoke record nor erased, and else it keeps its state with the record read and the revoked
mark as chunk 63 says. No byte changes, and the block opens and takes POWER_UP, which is alone in a queue that
was empty. `t` is the state before the arbiter's choice (`State.finish`, ArbiterOrder): on a free line POWER_UP
departs in this event with the next report sequence, and the engine becomes IDLE. That every area is examined as
it stands in this event is the model's choice (assumption log 17). -/
def Obligations.ScanCompletes : Prop :=
  ∀ (s : State) (cause : ResetCause), s.store.op = some (.scan cause) →
    ∃ t : State, exec .scanComplete s = .next t.finish ∧
      t = { s with
        store := { s.store with op := none, dirs := t.store.dirs },
        reports := ReportBlock.make { s.reports with isOpen := true }
          (.powerUp cause (t.store.dirs.toList.map Dir.st)) } ∧
      (∀ a, (s.store.dir a).marker ≠ .none → t.store.dir a =
        { s.store.dir a with st := .damaged, marker := .none, commit := none, revoked := false }) ∧
      (∀ a, (s.store.dir a).marker = .none → (s.store.dir a).st ≠ .valid →
        t.store.dir a = s.store.dir a) ∧
      (∀ a, (s.store.dir a).marker = .none → (s.store.dir a).st = .valid →
        let damaged := t.store.dir a =
          { s.store.dir a with st := .damaged, commit := none, revoked := false }
        (intactCommit (s.store.chunkByte a 62) (s.store.areaByte a) = none → damaged) ∧
        ∀ rec, intactCommit (s.store.chunkByte a 62) (s.store.areaByte a) = some rec →
          (imageCrc (s.store.areaByte a) rec.imageLength.toNat ≠ rec.imageCrc → damaged) ∧
          (imageCrc (s.store.areaByte a) rec.imageLength.toNat = rec.imageCrc →
            (intactRevoke (s.store.chunkByte a 63) rec.imageCrc = true →
              t.store.dir a = { s.store.dir a with commit := some rec, revoked := true }) ∧
            ((∀ i, i < 64 → s.store.chunkByte a 63 i = 0xFF#8) →
              t.store.dir a = { s.store.dir a with commit := some rec, revoked := false }) ∧
            (intactRevoke (s.store.chunkByte a 63) rec.imageCrc = false →
              (∃ i, i < 64 ∧ s.store.chunkByte a 63 i ≠ 0xFF#8) → damaged))) ∧
      (s.reports.queue = [] →
        t.reports.queue = [⟨.powerUp cause (t.store.dirs.toList.map Dir.st), 1⟩] ∧
        (s.link.tx = none → s.link.fullResetDue = false → s.link.waiting = [] →
          s.reports.completion = none →
          t.finish.link.tx = some (.report (reportFrame s.reports.nextSeq
            ⟨.powerUp cause (t.store.dirs.toList.map Dir.st), 1⟩)) ∧
          t.finish.store = { t.store with engine := .idle }))

/-- Loss of retention (R150): the named bytes take the named values, the last where one is named twice, and
nothing else changes; a byte the spec does not give is a fault (assumption log 24). -/
def Obligations.RetentionLossChanges : Prop :=
  ∀ (s : State) (area : Nat) (changes : List (Nat × Byte)), Memory.wf s.store.mem = true →
    (area < 8 → (∀ p ∈ changes, p.1 < 4096) →
      ∃ t : State, exec (.retentionLoss area changes) s = .next t ∧
        t = { s with store := { s.store with mem := t.store.mem } } ∧
        ∀ x, memRead t.store.mem x =
          match changes.reverse.find? fun p => 4096 * area + p.1 == x with
          | some p => p.2
          | none => memRead s.store.mem x) ∧
    (8 ≤ area ∨ (∃ p ∈ changes, 4096 ≤ p.1) →
      exec (.retentionLoss area changes) s = .fault .noSuchByte)

/-! The loader. -/

/-- LOAD (R170, R171): the checks of Table 10-1 in their order, and the acceptance: the context, the slot-use
set reserved, the channel LOADING with its report, the engine READING, and nothing else. -/
def Obligations.LoadAccepted : Prop :=
  ∀ (s : State) (r : Req) (area channel start : Byte), s.takes r .load [area, channel, start] →
    let e := s.frameEnds r.pins
    (8 ≤ area.toNat ∨ 2 ≤ channel.toNat ∨ 2 ≤ start.toNat → exec (.load r area channel start) s =
      .next (e.replied r .load [area, channel, start] [0x11#8])) ∧
    ∀ (a : Fin 8) (c : Chan) (st : Bool), a.val = area.toNat → chanCode c = channel →
      boolCode st = start → e.store.engine = .idle →
      ((e.store.dir a).st ≠ .valid → exec (.load r area channel start) s =
        .next (e.replied r .load [area, channel, start] [0x32#8])) ∧
      ((e.store.dir a).st = .valid → (e.chan c).st ≠ .idle → exec (.load r area channel start) s =
        .next (e.replied r .load [area, channel, start] [0x25#8])) ∧
      (∀ rec : CommitRec, (e.store.dir a).st = .valid → (e.store.dir a).commit = some rec →
        (e.chan c).st = .idle →
        ∃ t : State, exec (.load r area channel start) s =
            .next (t.replied r .load [area, channel, start] [0x01#8]) ∧
          t.loader = { e.loader with
            ctx := some { area := a, chan := c, start := st, seq := r.seq }, staging := [] } ∧
          (∀ i : Fin 48, t.slot i = { e.slot i with reserved := rec.slotUse.getLsbD i.val }) ∧
          t.chan c = { e.chan c with st := .loading } ∧
          t.chan (chanOther c) = e.chan (chanOther c) ∧
          t.store = { e.store with engine := .reading } ∧
          t.reports = e.reports.make (.channelState c .loading) ∧ t.epoch = e.epoch ∧
          t.link = e.link)

/-- One autostart step (R182): none while the engine is not IDLE or the list has no area at the next position
(assumption logs 7, 14); a step that fails a check ends with its LOAD_DONE while the engine stays READING for
it; one that passes is accepted as a LOAD with sequence 0. An area with no commit record any more, erased or
DAMAGED since the list was formed, ends AREA_STATE, with detail 0xFF where it was chosen (R183), for the channel
it named when the list was formed (the model's choice, assumption log 27). A chosen area erased and committed
again since is taken as its new record says, where R183 speaks only of the erase (the model's choice, assumption
log 46). The channel is tested as it stands at the step (R182), so that one on which a host LOAD has ended with
the channel IDLE again is loaded, where R183 has a host LOAD end the step NOT_IDLE (the model's choice,
assumption log 50). -/
def Obligations.AutostartSteps : Prop :=
  ∀ s : State,
    (s.store.engine ≠ .idle ∨ s.loader.auto[s.loader.autoPos]? = none →
      exec .autostartStep s = .next s) ∧
    ∀ x : AutoArea, s.store.engine = .idle → s.loader.auto[s.loader.autoPos]? = some x →
      let ended := fun (c : Chan) (st : Status) (detail : Byte) => State.finish
        { s with loader := { s.loader with autoPos := s.loader.autoPos + 1 },
                 store := { s.store with engine := .reading },
                 reports := s.reports.make (.loadDone 0#8 c x.area st detail) }
      ((s.store.dir x.area).commit = none → exec .autostartStep s =
        .next (ended x.chan .areaState (if x.chosen then 0xFF#8 else 0xFE#8))) ∧
      ∀ rec : CommitRec, (s.store.dir x.area).commit = some rec →
      let failed := ended rec.chan
      (x.chosen = false → exec .autostartStep s = .next (failed .areaState 0xFE#8)) ∧
      (x.chosen = true → (s.store.dir x.area).st ≠ .valid ∨ (s.store.dir x.area).revoked = true ∨
        rec.autostart = false → exec .autostartStep s = .next (failed .areaState 0xFF#8)) ∧
      (x.chosen = true → (s.store.dir x.area).st = .valid → (s.store.dir x.area).revoked = false →
        rec.autostart = true →
        ((s.chan rec.chan).st ≠ .idle → exec .autostartStep s = .next (failed .notIdle 0xFF#8)) ∧
        ((s.chan rec.chan).st = .idle → ∃ t : State, exec .autostartStep s = .next t.finish ∧
          t.loader = { s.loader with
            ctx := some { area := x.area, chan := rec.chan, start := rec.startAfter, seq := 0#8 },
            staging := [], autoPos := s.loader.autoPos + 1 } ∧
          (∀ i : Fin 48, t.slot i = { s.slot i with reserved := rec.slotUse.getLsbD i.val }) ∧
          t.chan rec.chan = { s.chan rec.chan with st := .loading } ∧
          t.chan (chanOther rec.chan) = s.chan (chanOther rec.chan) ∧
          t.store = { s.store with engine := .reading } ∧
          t.reports = s.reports.make (.channelState rec.chan .loading) ∧ t.epoch = s.epoch ∧
          t.link = s.link))

/-- The completion of a load (R173 to R178, R42), `u` being the state in which it is taken (with SCLK stopped,
after the events of the last period: assumption log 9) and `img` the staged image: a CRC that does not match
ends the load CORRUPT and makes the area DAMAGED, and so do an image that matches and does not read as a program
and an area without a record, to which the spec gives no outcome (the model's choices, assumption logs 20, 21);
a slot conflict or a blank hop that does not outlast the ramp ends the load with nothing applied; a load that
passes writes its slots, replaces the queue, and leaves the channel IDLE or, with the start flag, WAITING with
its head evaluated at once, whatever its trigger (`Evaluated`: R51, R57, R58, R75), an AFTER head playing. A
completion without a load changes nothing (assumption log 7). LATE_START is made before the other reports of the
start, these are in the order of R46, and all of them are made before one is sent (the model's order, assumption
logs 22, 47). That the area is read as it stands in this event, what is read past the staged bytes, and that a
start takes an epoch event of the period first are the model's choices (assumption logs 18, 19, 10). -/
def Obligations.LoadCompletes : Prop :=
  ∀ (s : State) (stopped : Bool),
    (s.loader.ctx = none → exec (.loadReadComplete stopped) s = .next s) ∧
    let u := s.noteClock stopped
    ∀ k : LoadCtx, s.loader.ctx = some k → u.lawful = true →
      let c := k.chan
      let failed := fun (t : State) (st : Status) (detail : Byte) =>
        exec (.loadReadComplete stopped) s = .next t.finish ∧
        t.chan c = { u.chan c with st := .idle } ∧ t.chan (chanOther c) = u.chan (chanOther c) ∧
        (∀ i, t.slot i = { u.slot i with reserved := false }) ∧
        t.loader = { u.loader with ctx := none, staging := [] } ∧ t.epoch = u.epoch ∧
        t.link = u.link ∧ t.reports = (u.reports.make (.channelState c .idle)).make
          (.loadDone k.seq c k.area st detail)
      let corrupt := fun t : State => failed t .corrupt 0xFF#8 ∧
        t.store = { u.store with
          dirs := u.store.dirs.set k.area.val
            { u.store.dir k.area with st := .damaged, commit := none, revoked := false }
            k.area.isLt }
      ((u.store.dir k.area).commit = none → ∃ t : State, corrupt t) ∧
      ∀ rec : CommitRec, (u.store.dir k.area).commit = some rec →
      let img := stagedByte (u.store.areaSlice k.area 0 (min rec.imageLength.toNat 1808))
      (imageCrc img rec.imageLength.toNat ≠ rec.imageCrc → ∃ t : State, corrupt t) ∧
      (imageCrc img rec.imageLength.toNat = rec.imageCrc → programIn img = none → ∃ t : State, corrupt t) ∧
      ∀ p : Program, imageCrc img rec.imageLength.toNat = rec.imageCrc → programIn img = some p →
        (∀ before i tone after, p.slots = before ++ (i, tone) :: after →
          (∀ q ∈ before, u.conflicts c q = false) →
          0 < (u.chan (chanOther c)).pinsOn i →
          (∀ held, (u.slot i).tone = some held → held.word ≠ tone.word ∨ held.offset ≠ tone.offset) →
          ∃ t : State, failed t .slotConflict (b8 i.val) ∧ t.store = u.store) ∧
        (∀ before hop after, (∀ q ∈ p.slots, u.conflicts c q = false) →
          p.hops = before ++ hop :: after → hop.blank = true →
          hop.dwell.toNat ≤ (u.chan c).cfg.ramp →
          (∀ e ∈ before, e.blank = true → (u.chan c).cfg.ramp < e.dwell.toNat) →
          ∃ t : State, failed t .dwellShort (b8 before.length) ∧ t.store = u.store) ∧
        ((∀ q ∈ p.slots, u.conflicts c q = false) →
          (∀ e ∈ p.hops, e.blank = true → (u.chan c).cfg.ramp < e.dwell.toNat) →
          ∃ t : State, exec (.loadReadComplete stopped) s = .next t.finish ∧ t.store = u.store ∧
            t.loader = { u.loader with ctx := none, staging := [] } ∧ t.link = u.link ∧
            (∀ i, (t.slot i).reserved = false) ∧
            (∀ i tone, (i, tone) ∈ p.slots → (t.slot i).tone = some tone) ∧
            (∀ i, (∀ q ∈ p.slots, q.1 ≠ i) → (t.slot i).tone = (u.slot i).tone) ∧
            (k.start = false ∨ (u.chan (chanOther c)).ready = false → ∀ i, (t.slot i).pins =
              (u.chan (chanOther c)).pinsOn i + p.hops.countP fun e => e.slot == i) ∧
            (k.start = false → t.chan c = { u.chan c with st := .idle, queue := p.hops } ∧
              t.chan (chanOther c) = u.chan (chanOther c) ∧ t.epoch = u.epoch ∧
              t.reports = (u.reports.make (.channelState c .idle)).make
                (.loadDone k.seq c k.area .ok 0xFF#8)) ∧
            (∀ hop rest tone, k.start = true → p.hops = hop :: rest → hop.trigger = .after →
              (hop.slot, tone) ∈ p.slots →
              (t.chan c).st = .dwell ∧ (t.chan c).cur = some hop ∧ (t.chan c).queue = rest ∧
              (t.chan c).dwell = hop.dwell.toNat ∧ (t.chan c).cfg = (u.chan c).cfg ∧
              (t.chan c).acc = (match hop.mode with
                | .continuous => (u.settleEpoch.chan c).acc
                | .restart => BitVec.ofNat 32 (tone.offset.toNat * 65536)
                | .coherent => BitVec.ofNat 32 (tone.offset.toNat * 65536 +
                    tone.word.toNat * u.epoch.periodCount.toNat)) ∧
              (t.chan c).gate.hold.noHop = false ∧
              t.chan (chanOther c) = u.settleEpoch.chan (chanOther c) ∧
              t.epoch = u.settleEpoch.epoch) ∧
            (∀ hop rest, k.start = true → p.hops = hop :: rest → ∃ w v : State,
              w.chan c = { u.chan c with st := .waiting, queue := p.hops } ∧
              w.chan (chanOther c) = u.chan (chanOther c) ∧ w.epoch = u.epoch ∧
              w.reports = u.reports.make (.channelState c .waiting) ∧
              (∀ i, (w.slot i).reserved = false ∧ (w.slot i).pins =
                (u.chan (chanOther c)).pinsOn i + p.hops.countP fun e => e.slot == i) ∧
              (∀ i tone, (i, tone) ∈ p.slots → (w.slot i).tone = some tone) ∧
              Evaluated w v c hop rest false ∧
              t = v.report (.loadDone k.seq c k.area .ok 0xFF#8)))

/-! The events of the sample period. -/

/-- DWELL_EXPIRY (R53, R54, R46, R51, R52, R57, R61, R63, R75, R76, R38), whatever the gate and the ramp length:
not due, nothing; with stop-at-end, the entry into ENDING towards IDLE (`EndingEntered`), which completes at
once under a CLOSED gate; on an empty queue outside cycle mode, the underrun by policy (`Underran`); else the
evaluation of the head, or in cycle mode with an empty queue of the current hop (`Evaluated`): an AFTER head, or
a TIME head whose value the count has reached or passed, is switched to with no gap, or by way of SWITCHING
where it is blank and the gate is not CLOSED, at once where there is no ramp (R95); a LINE head or a TIME value
not reached gives OVERSTAY; a PAIRED head makes the channel ready, in OVERSTAY, or in SWITCHING once the gate is
CLOSED where it is blank, and with a ready partner both start. A start or a comparison with the epoch count
takes an epoch event of the period first, and the reports of one event are in the model's order (assumption logs
10, 22), each made before one is sent (assumption log 47); where ENDING completes at once the accumulator keeps
what it has moved to (assumption log 43). An event that is not due does not occur (assumption log 7). -/
def Obligations.DwellExpiries : Prop :=
  ∀ (s : State) (c : Chan),
    ((s.chan c).st ≠ .dwell ∨ (s.chan c).cur = none ∨ (s.chan c).dwell ≠ 0 →
      exec (.dwellExpiry c) s = .next s) ∧
    ((s.chan c).st = .dwell → (s.chan c).cur.isSome = true → (s.chan c).dwell = 0 →
      ∃ t : State, exec (.dwellExpiry c) s = .next t.finish ∧
        t.store = s.store ∧ t.loader = s.loader ∧ t.link = s.link ∧
        ((s.chan c).stopAtEnd = true → EndingEntered s t c .idle) ∧
        ((s.chan c).stopAtEnd = false → HeadRemoved s t c false))

/-- The pair unit (R78, R81 to R83, R85, R41). PAIR_TIMER_EXPIRY ends the readiness and skips the head with its
report and its pin, or in cycle mode skips nothing where the channel waits on its own current hop; in SWITCHING
the channel returns to OVERSTAY. Then it is evaluated anew, whatever stands behind: with a current hop, the
underrun by policy on an empty queue outside cycle mode (`Underran`), else the head or the current hop
(`Evaluated`), a blank PAIRED one keeping the BLANK of SWITCHING (R83); without one, an empty queue leaves it
WAITING, and a new head is evaluated. BLANK leaves last where the channel is not in SWITCHING, and the gate acts
on the hold set that is left (`BlankDropped`). And the pair start (R78): a dwell expiry that makes the second
channel ready starts both PAIRED heads. A start takes an epoch event of the period first, the reports of one
event are in the model's order, and a cycle's wait for its own hop is read as one offer (the model's choices,
assumption logs 10, 22, 29). Every report of one event is made before one is sent, and where ENDING completes at
once the accumulator keeps what it has moved to (assumption logs 47, 43). An expiry that is not due does not
occur (assumption log 7). -/
def Obligations.PairUnitActs : Prop :=
  (∀ (s : State) (c : Chan), (s.chan c).ready = false ∨ (s.chan c).timer ≠ some 0 →
    exec (.pairTimerExpiry c) s = .next s) ∧
  (∀ (s : State) (c : Chan) (hop : HopEntry) (rest : List HopEntry), (s.chan c).ready = true →
    (s.chan c).timer = some 0 → (s.chan c).offers hop rest →
    let x := s.chan c
    let skipped := s.reports.make (.pairTimeout c hop.tag)
    ∃ w u t : State, exec (.pairTimerExpiry c) s = .next t.finish ∧
      t.store = s.store ∧ t.loader = s.loader ∧ t.link = s.link ∧
      (∀ i, w.slot i = if x.selfHead = false ∧ i = hop.slot
        then { s.slot i with pins := (s.slot i).pins - 1 } else s.slot i) ∧
      w = { s.setChan c
          { x with
            queue := rest, ready := false, timer := none,
            st := if x.st = .switching then .overstay else x.st } with
        slots := w.slots,
        reports := if x.st = .switching then skipped.make (.channelState c .overstay) else skipped } ∧
      (x.cur.isSome = true → HeadRemoved w u c (x.st == .switching)) ∧
      (x.cur = none → rest = [] → u = w) ∧
      (x.cur = none → ∀ next more, rest = next :: more →
        Evaluated (w.setChan c { w.chan c with selfHead := false }) u c next more false) ∧
      BlankDropped u t c) ∧
  (∀ (s : State) (c : Chan) (hop other : HopEntry) (rest others : List HopEntry),
    (s.chan c).expiryDue = true → (s.chan c).stopAtEnd = false → (s.chan c).ready = false →
    (s.chan c).queue = hop :: rest → hop.trigger = .paired → hop.blank = false →
    (s.chan (chanOther c)).ready = true → (s.chan (chanOther c)).selfHead = false →
    (s.chan (chanOther c)).queue = other :: others → other.trigger = .paired →
    (s.chan c).cfg.cycle = false → (s.chan (chanOther c)).cfg.cycle = false →
    ∃ t : State, exec (.dwellExpiry c) s = .next t.finish ∧
      (t.chan c).st = .dwell ∧ (t.chan c).cur = some hop ∧ (t.chan c).queue = rest ∧
      (t.chan c).ready = false ∧ (t.chan c).timer = none ∧ (t.chan c).dwell = hop.dwell.toNat ∧
      (t.chan (chanOther c)).st = .dwell ∧ (t.chan (chanOther c)).cur = some other ∧
      (t.chan (chanOther c)).queue = others ∧ (t.chan (chanOther c)).ready = false ∧
      (t.chan (chanOther c)).timer = none ∧ (t.chan (chanOther c)).dwell = other.dwell.toNat ∧
      t.epoch = s.settleEpoch.epoch ∧ t.store = s.store ∧ t.loader = s.loader ∧ t.link = s.link)

/-- GATE_ARRIVAL (R94, R97): not arrived, nothing; at 1,024 the gate is OPEN; at 0 it is CLOSED, which makes the
switch in SWITCHING towards a head that is not PAIRED (R52, R59), the own current hop of a cycle among them
(R38), and makes the channel ready in SWITCHING towards a PAIRED head, with its timer, or with a ready partner
the pair start (`Readied`: R76, R78, R81); and in ENDING it completes ENDING (`EndingDone`: R64, R39): the hop
is released and its pin falls, or in cycle mode it joins the tail, and towards WAITING the head of a queue that
is then not empty is evaluated. The accumulator keeps what it has moved to in the period in which ENDING
completes, a start takes an epoch event of the period first, the reports are in the model's order, and a reply
before the arrival is taken shows the gate at its target and still moving (the model's choices, assumption logs
43, 10, 22, 44), each made before one is sent (assumption log 47). An arrival that is not due does not occur
(assumption log 7). -/
def Obligations.GateArrivals : Prop :=
  ∀ (s : State) (c : Chan),
    ((s.chan c).gate.arrived = false → exec (.gateArrival c) s = .next s) ∧
    ((s.chan c).gate.st = .opening → (s.chan c).gate.gain = 1024 →
      exec (.gateArrival c) s = .next (State.finish
        { s.setGate c { (s.chan c).gate with st := .opened } with
          reports := s.reports.make (.gateState c .opened (s.chan c).gate.hold) })) ∧
    ((s.chan c).gate.st = .closing → (s.chan c).gate.gain = 0 →
      let shut : State :=
        { s.setGate c { (s.chan c).gate with st := .closed } with
          reports := s.reports.make (.gateState c .closed (s.chan c).gate.hold) }
      ((s.chan c).st ≠ .switching → (s.chan c).st.isEnding = false →
        exec (.gateArrival c) s = .next shut.finish) ∧
      (∀ hop rest, (s.chan c).st = .switching → (s.chan c).offers hop rest →
        ∃ t : State, exec (.gateArrival c) s = .next t.finish ∧
          (hop.trigger ≠ .paired → Started shut.settleEpoch t c hop rest) ∧
          (hop.trigger = .paired → Readied shut t c)) ∧
      (∀ dest, (s.chan c).st = .ending dest →
        ∃ t : State, exec (.gateArrival c) s = .next t.finish ∧ EndingDone shut t c dest ∧
          t.store = s.store ∧ t.loader = s.loader ∧ t.link = s.link))

/-- TRIGGER_EDGE (R55) and TIME_ARRIVAL (R57): the edge or the epoch count meets the LINE or TIME head a channel
in WAITING or OVERSTAY waits on, a cycle's own current hop among them (R38), and starts it (`Met`: R51, R52), by
way of SWITCHING where it is blank and the gate is not CLOSED. An edge at any other time, on a head that is no
LINE entry and on a channel with no head offered among them, is taken and has no effect, and an event that is
not due does not occur (assumption log 7). The count is that of the period, an epoch event of which is taken
first, and the reports are in the model's order (assumption logs 10, 22), each made before one is sent
(assumption log 47). -/
def Obligations.HeadTriggers : Prop :=
  ∀ (s : State) (c : Chan),
    let waits := (s.chan c).st = .waiting ∨ (s.chan c).st = .overstay
    let unmarked := s.setChan c { s.chan c with edgeDue := false }
    ((s.chan c).edgeDue = false → exec (.triggerEdge c) s = .next s) ∧
    ((s.chan c).edgeDue = true → ¬waits ∨ ((s.chan c).queue = [] ∧ (s.chan c).selfHead = false) →
      exec (.triggerEdge c) s = .next unmarked.finish) ∧
    ((∀ hop, (s.chan c).offered = some hop → hop.trigger ≠ .time s.epoch.periodCount) ∨ ¬waits →
      exec (.timeArrival c) s = .next s) ∧
    ∀ hop rest, waits → (s.chan c).offers hop rest →
      ((s.chan c).edgeDue = true → hop.trigger ≠ .line →
        exec (.triggerEdge c) s = .next unmarked.finish) ∧
      ((s.chan c).edgeDue = true → hop.trigger = .line →
        ∃ t : State, exec (.triggerEdge c) s = .next t.finish ∧ Met unmarked t c hop rest) ∧
      (hop.trigger = .time s.epoch.periodCount →
        ∃ t : State, exec (.timeArrival c) s = .next t.finish ∧ Met s.settleEpoch t c hop rest)

/-- SYNC_EDGE by arm state (R18, R16), WRAP (R15) and GATE_LINE_CHANGE (R101). A DISARMED edge has no effect, a
ONCE edge disarms, and an armed one is an epoch event with cause SYNC (R14, R48, R49; assumption logs 10, 11):
where this period has made no COHERENT switch and no HOP_BEGIN that waits, the count becomes 0 with its report.
WRAP is taken alone, and its report is held to the end of its period, which an epoch event of the period would
leave without it (the model's moment, assumption log 11; SamplePeriodAdvances makes the report). A gate of a
following channel holds LINE as the line was sampled, HOST stays, and where the gate cannot enter CLOSED in
SWITCHING or ENDING so does every other reason; the gate moves as its hold set becomes empty or not (R92, R93,
R95), and a channel ready on a blank PAIRED head in OVERSTAY takes BLANK for the reason that leaves, and enters
SWITCHING (R77). Each gate that moves makes its GATE_STATE (R103), and the entry into SWITCHING its
CHANNEL_STATE, channel A's first (the model's order, assumption log 22). An event that is not due does not
occur, and the gates take a changed sample at GATE_LINE_CHANGE (the model's choices, assumption logs 7, 30), and
every report of one event is made before one is sent (assumption log 47). -/
def Obligations.EpochAndLineEvents : Prop :=
  (∀ s : State, (s.epoch.syncDue = false → exec .syncEdge s = .next s) ∧
    (s.epoch.syncDue = true → s.epoch.arm = .disarmed →
      exec .syncEdge s = .next (State.finish { s with epoch := { s.epoch with syncDue := false } })) ∧
    (s.epoch.syncDue = true → s.epoch.arm ≠ .disarmed →
      let arm := if s.epoch.arm = .once then .disarmed else s.epoch.arm
      (∃ t : State, exec .syncEdge s = .next t.finish ∧
        EpochTaken { s with epoch := { s.epoch with syncDue := false, arm := arm } } t .sync) ∧
      ((∀ c, (s.chan c).coherentNow = none) → s.reports.begun = 0 →
        exec .syncEdge s = .next (State.finish
          { s with
            epoch := { s.epoch with
              count := 0#48, syncDue := false, wrapDue := false, wrapHeld := false, arm := arm },
            reports := s.reports.make (.epochEvent .sync) })))) ∧
  (∀ s : State, (s.epoch.wrapDue = false → exec .wrap s = .next s) ∧
    (s.epoch.wrapDue = true → exec .wrap s = .next (State.finish
      { s with epoch := { s.epoch with wrapDue := false, wrapHeld := true } }))) ∧
  (∀ s : State, (s.gatePin = s.gateLine → exec .gateLineChange s = .next s) ∧
    (s.gatePin ≠ s.gateLine → ∃ t : State, exec .gateLineChange s = .next t.finish ∧
      t.gateLine = s.gatePin ∧ t.store = s.store ∧ t.loader = s.loader ∧ t.link = s.link ∧
      (∀ c, (t.chan c).cfg = (s.chan c).cfg ∧
        (t.chan c).gate.hold.line = ((s.chan c).cfg.follow && s.gatePin) ∧
        (t.chan c).gate.hold.host = (s.chan c).gate.hold.host) ∧
      ((∀ c, (s.chan c).gate.lawful = true ∧ (((s.chan c).st ≠ .switching ∧ (s.chan c).st.isEnding = false) ∨
          (s.chan c).gate.hold.isEmpty = false)) →
        let after := fun (b : ReportBlock) (c : Chan) =>
          let b1 := if (t.chan c).st = (s.chan c).st then b else b.make (.channelState c .switching)
          if (t.chan c).gate.st = (s.chan c).gate.st then b1
            else b1.make (.gateState c (t.chan c).gate.st (t.chan c).gate.hold)
        t.reports = after (after s.reports .A) .B ∧
        t.slots = s.slots ∧ t.epoch = s.epoch ∧ ∀ c,
        let x := s.chan c
        let y := t.chan c
        let h : HoldSet := { x.gate.hold with line := x.cfg.follow && s.gatePin }
        (x.readyBlankOverstay = false ∨ x.gate.hold.isEmpty = true ∨ h.isEmpty = false →
          { y with gate := x.gate } = x ∧ y.gate.hold = h ∧
          y.gate.st = (if x.gate.hold.isEmpty = h.isEmpty then x.gate.st
            else if h.isEmpty = true then
              (if x.cfg.ramp = 0 ∨ x.gate.gain = 1024 then .opened else .opening)
            else if x.cfg.ramp = 0 ∨ x.gate.gain = 0 then .closed else .closing) ∧
          y.gate.gain = (if x.gate.hold.isEmpty = h.isEmpty ∨ x.cfg.ramp ≠ 0 then x.gate.gain
            else if h.isEmpty = true then 1024 else 0)) ∧
        (x.readyBlankOverstay = true → x.gate.hold.isEmpty = false → h.isEmpty = true →
          { y with gate := x.gate, st := .overstay } = x ∧ y.st = .switching ∧
          y.gate.hold = { h with blank := true } ∧ y.gate.st = x.gate.st ∧
          y.gate.gain = x.gate.gain))))

/-- SAMPLE_PERIOD (R14, R15, R18, R47, R53, R55, R81, R91, R101, R109) takes what is left of the period before
and goes on from there (`State.endPeriod`): the count rises by 1 mod 2^48, each channel's accumulator moves by
its current hop's word, its dwell counter falls, its pair timer falls, its gate steps, every line is sampled,
and one strobe is given with the samples of the period. Everything else stays. It completes in every state, and
the samples of the period before, after the events of it that were left, are final. What is left is taken as the
event commands would take it, in the one order SYNC, WRAP, GATE line, of each channel its arrival, expiry, edge
and TIME, and the pair timers (the model's order, assumption log 8); a period of which nothing is left ends as
it stands, and a wrap with no epoch event beside it makes its report last (R15, assumption log 11). A request
that comes with SCLK stopped meets the closed period (the model's moment, assumption log 9). The notes of a
period are the model's (assumption logs 10, 28). The gates keep the older GATE sample until GATE_LINE_CHANGE,
the accumulator moves by the hop's word also in the period in which ENDING completes, and a gate that the step
brings onto its target is still moving until its arrival (the model's choices, assumption logs 30, 43, 44). -/
def Obligations.SamplePeriodAdvances : Prop :=
  ∀ (s : State) (l : Lines),
    (let channel := fun c : Chan => [Instr.gateArrival c, .dwellExpiry c, .triggerEdge c, .timeArrival c]
     runAll ([.syncEdge, .wrap, .gateLineChange] ++ channel .A ++ channel .B ++
       [.pairTimerExpiry .A, .pairTimerExpiry .B]) s = .next s.closePeriod) ∧
    (s.closePeriod.epoch.wrapHeld = false → s.endPeriod = s.closePeriod) ∧
    (s.closePeriod.epoch.wrapHeld = true → s.endPeriod = State.finish
      { s.closePeriod with
        epoch := { s.closePeriod.epoch with wrapHeld := false },
        reports := s.closePeriod.reports.make (.epochEvent .wrap) }) ∧
    (∀ pins : Pins, s.frameEnds pins = if pins.sclkStopped = true then
        { s.hunt.closePeriod with ports := { s.hunt.closePeriod.ports with periodOpen := false } }
      else s.hunt) ∧
    (s.quiet → s.endPeriod = s) ∧
    (s.epoch.wrapHeld = true →
      let u := { s with epoch := { s.epoch with wrapHeld := false } }
      u.quiet → exec (.samplePeriod l) s = exec (.samplePeriod l)
        (State.finish { u with reports := u.reports.make (.epochEvent .wrap) })) ∧
    let u := s.endPeriod
    ∃ t : State, exec (.samplePeriod l) s = .next t ∧
      t.epoch = { u.epoch with
        count := u.epoch.count + 1#48, syncLevel := some l.sync,
        syncDue := decide (u.epoch.syncLevel = some false ∧ l.sync = true),
        wrapDue := decide (u.epoch.count.toNat = 281474976710655) } ∧
      t.slots = u.slots ∧ t.reports = { u.reports with begun := 0 } ∧
      t.link = u.link ∧ t.store = u.store ∧
      t.loader = u.loader ∧ t.gateLine = u.gateLine ∧ t.gatePin = l.gate ∧
      t.pending = u.pending ∧
      (∀ c, let now := match c with | .A => l.trigA | .B => l.trigB
        (t.chan c).st = (u.chan c).st ∧ (t.chan c).cur = (u.chan c).cur ∧
        (t.chan c).queue = (u.chan c).queue ∧ (t.chan c).cfg = (u.chan c).cfg ∧
        (t.chan c).stopAtEnd = (u.chan c).stopAtEnd ∧ (t.chan c).ready = (u.chan c).ready ∧
        (t.chan c).selfHead = (u.chan c).selfHead ∧ (t.chan c).gate.periodGain = (t.chan c).gate.gain ∧
        (t.chan c).gate.st = (u.chan c).gate.st ∧ (t.chan c).gate.hold = (u.chan c).gate.hold ∧
        (t.chan c).gate.gain = (match (u.chan c).gate.st with
          | .closing => (u.chan c).gate.gain - rampStep (u.chan c).cfg.ramp (u.chan c).gate.gain
          | .opening => (u.chan c).gate.gain +
              rampStep (u.chan c).cfg.ramp (1024 - (u.chan c).gate.gain)
          | _ => (u.chan c).gate.gain) ∧
        (t.chan c).acc = (match (u.chan c).cur with
          | some hop => (u.chan c).acc + (u.toneOf hop.slot).word
          | none => (u.chan c).acc) ∧
        (t.chan c).dwell = (if (u.chan c).cur.isSome then (u.chan c).dwell - 1
          else (u.chan c).dwell) ∧
        (t.chan c).timer = (u.chan c).timer.map (· - 1) ∧ (t.chan c).trigLevel = some now ∧
        (t.chan c).coherentNow = none ∧
        ((t.chan c).edgeDue = true ↔ (u.chan c).trigLevel = some (!now) ∧
          ((u.chan c).cfg.edge = .both ∨ ((u.chan c).cfg.edge = .rising ∧ now = true) ∨
            ((u.chan c).cfg.edge = .falling ∧ now = false)))) ∧
      t.ports.strobes = u.ports.strobes + 1 ∧ t.ports.periodOpen = true ∧
      t.ports.priorA = u.ports.douta ∧ t.ports.priorB = u.ports.doutb ∧
      ((u.chan .A).cur = none → t.ports.douta = 0#16) ∧
      ((u.chan .B).cur = none → t.ports.doutb = 0#16) ∧
      (∀ hop, (u.chan .A).cur = some hop → t.ports.douta = BitVec.ofInt 16
        (((sineTable ((t.chan .A).acc.toNat / 262144) * hop.amplitude.toNat).tdiv 32767 *
          (t.chan .A).gate.gain).tdiv 1024)) ∧
      (∀ hop, (u.chan .B).cur = some hop → t.ports.doutb = BitVec.ofInt 16
        (((sineTable ((t.chan .B).acc.toNat / 262144) * hop.amplitude.toNat).tdiv 32767 *
          (t.chan .B).gate.gain).tdiv 1024))

/-- The ramp (R90): with the step s and the remainder r of a ramp length L, a moving gate moves by s while
its target is farther than s + r, and onto it otherwise. A full move stands n steps of s from its start after
n of the first L − 1 periods and lands in the L-th; a move from part-way lands no later. -/
def Obligations.RampLands : Prop :=
  ∀ L : Nat, 1 ≤ L → L ≤ 1023 → ∀ g : Gate, g.gain ≤ 1024 →
    let step := 1024 / L
    let rest := 1024 - L * step
    (g.st = .closing →
      (Gate.step L g).gain = (if step + rest < g.gain then g.gain - step else 0) ∧
      (g.gain = 1024 → ∀ n, n < L → (Nat.repeat (Gate.step L) n g).gain = 1024 - n * step) ∧
      (Nat.repeat (Gate.step L) L g).gain = 0) ∧
    (g.st = .opening →
      (Gate.step L g).gain = (if step + rest < 1024 - g.gain then g.gain + step else 1024) ∧
      (g.gain = 0 → ∀ n, n < L → (Nat.repeat (Gate.step L) n g).gain = n * step) ∧
      (Nat.repeat (Gate.step L) L g).gain = 1024)

/-- The sine table (R106): each value is within 0.501 of 32,767 times the sine of its angle, so that it is the
nearest integer wherever that is not within 0.001 of a tie; and the second half turn mirrors the first. (How the
table is computed is deduced, assumption log 33.) -/
def Obligations.SineTableRounds : Prop :=
  (∀ k : Nat, k < 16384 →
    |(sineTable k : ℝ) - 32767 * Real.sin (2 * Real.pi * k / 16384)| ≤ 501 / 1000) ∧
  ∀ k : Nat, k < 8192 → sineTable (k + 8192) = -sineTable k

/-! The receiver, the frames and the transmitter. -/

/-- The receiver (R111 to R114, Table 6-2) and a frame of an unknown kind (R116): where each byte takes it,
the faults that return it to HUNT with their reports, and the refusal. LENGTH_FAULT and CHECK_FAULT stand for a
whole broken frame, so that they fault in every receiver state (the model's choice, assumption log 7). -/
def Obligations.ReceiverRows : Prop :=
  ∀ s : State, s.link.deaf = false →
    let faulted := fun reason : FaultReason => State.finish
      { s with link := { s.link with rx := .hunt, buf := [] },
               reports := s.reports.make (.linkFault reason) }
    let moved := fun (rx : RxState) (buf : List Byte) =>
      { s with link := { s.link with rx := rx, buf := buf } }
    (∀ (b : Byte) (p : Pins),
      exec (.byteReceived false b p) s = .next s ∧
      (s.link.rx = .hunt → b ≠ 0xD3#8 → exec (.byteReceived true b p) s = .next s) ∧
      (s.link.rx = .hunt → b = 0xD3#8 →
        exec (.byteReceived true b p) s = .next (moved .length [])) ∧
      (s.link.rx = .length → b.toNat ≤ 240 →
        exec (.byteReceived true b p) s = .next (moved .kind (s.link.buf ++ [b]))) ∧
      (s.link.rx = .length → 240 < b.toNat →
        exec (.byteReceived true b p) s = .next (faulted .length)) ∧
      (s.link.rx = .kind →
        exec (.byteReceived true b p) s = .next (moved .seq (s.link.buf ++ [b]))) ∧
      (∀ n kind, s.link.rx = .seq → s.link.buf = [n, kind] → exec (.byteReceived true b p) s =
        .next (moved (if n = 0#8 then .checkHi else .payload) [n, kind, b])) ∧
      (∀ n kind seq data, s.link.rx = .payload → s.link.buf = n :: kind :: seq :: data →
        exec (.byteReceived true b p) s =
          .next (moved (if data.length + 1 = n.toNat then .checkHi else .payload)
            (n :: kind :: seq :: data ++ [b]))) ∧
      (s.link.rx = .checkHi →
        exec (.byteReceived true b p) s = .next (moved .checkLo (s.link.buf ++ [b]))) ∧
      (∀ kind seq payload hi, s.link.rx = .checkLo →
        s.link.buf = b8 payload.length :: kind :: seq :: payload ++ [hi] →
        (hi ++ b ≠ frameCheck kind seq payload →
          exec (.byteReceived true b p) s = .next (faulted .check)) ∧
        (hi ++ b = frameCheck kind seq payload → exec (.byteReceived true b p) s =
          .next ((s.frameEnds p).acceptBytes kind seq payload p.wp)))) ∧
    (∀ n : Byte, 240 < n.toNat → exec (.lengthFault n) s = .next (faulted .length)) ∧
    (∀ kind seq payload check, check ≠ frameCheck kind seq payload →
      exec (.checkFault kind seq payload check) s = .next (faulted .check)) ∧
    (s.link.rx ≠ .hunt → exec .interbyteTimeout s = .next (faulted .timeout)) ∧
    (s.link.rx = .hunt → exec .interbyteTimeout s = .next s) ∧
    exec .rxBreak s = .next (faulted .break_) ∧
    (∀ (seq : Byte) (p : Pins) (kind : Byte) (payload : List Byte), kindOf kind = none →
      (s.frameEnds p).link.lookup seq (frameCheck kind seq payload) = .fresh →
      (s.frameEnds p).link.roomy = true →
      exec (.unknownKind seq p kind payload) s = .next (State.finish ((s.frameEnds p).place
        (.reply { seq := seq, check := frameCheck kind seq payload,
                  frame := mkFrame 0xFF#8 seq [0x12#8, kind], full := false }))))

/-- The bytes of a whole frame, taken one after another by a receiver in HUNT, have the effect of the frame's
acceptance and no other (R111, R115, Table 7-1). -/
def Obligations.FrameBytesAreAccepted : Prop :=
  ∀ (s : State) (kind seq : Byte) (payload : List Byte) (pins : Pins), s.link.deaf = false →
    s.link.rx = .hunt → payload.length ≤ 240 →
    runAll ((mkFrame kind seq payload).map fun b => .byteReceived true b pins) s =
      .next ((s.frameEnds pins).acceptBytes kind seq payload pins.wp)

/-- A request row has the effect of its frame of bytes, its own payload or a raw one (R115, R130, Table 7-7):
the owner's reading of the payload gives back the row's fields. A payload of a wrong length is answered
BAD_LENGTH (R132), and one whose code has no row BAD_VALUE (R133), and neither changes anything. -/
def Obligations.RowsAreTheirBytes : Prop :=
  ∀ (i : Instr) (r : Req) (k : Kind) (payload : List Byte), requestOf i = some (r, k, payload) →
    ∀ s : State, s.link.deaf = false →
    let e := s.frameEnds r.pins
    let p := r.raw.getD payload
    let answered := fun st : Byte => exec i s = .next (State.finish (e.place
      (.reply { seq := r.seq, check := frameCheck (kindCode k) r.seq p,
                frame := mkFrame (replyKind k) r.seq [st], full := false })))
    exec i s = .next (e.acceptBytes (kindCode k) r.seq p r.pins.wp) ∧
    (e.link.lookup r.seq (frameCheck (kindCode k) r.seq p) = .fresh → e.link.roomy = true →
      (lengthFits k p = false → answered 0x10#8) ∧
      (lengthFits k p = true → codesOf k ≠ [] → byteAt p (codeAt k) ∉ codesOf k → answered 0x11#8))

/-- The retry lookup and the window (R115, R116, R118, R119, R121) of every accepted frame, a request row with
its own payload or a raw one and a frame of an unknown kind: a repeat of a request whose reply waits or is being
sent is dropped; a repeat of one in the cache is answered with the cached frame and not executed again; a frame
of the sequence of a cached entry with another check value removes the entry and goes on as a new one; with four
replies waiting a new request, or a repeat of a cached one, is refused WINDOW_FULL, or dropped with the OVERRUN
report. -/
def Obligations.RetryAndWindow : Prop :=
  (∀ (i : Instr) (pins : Pins) (kind seq : Byte) (payload : List Byte),
    frameOf i = some (pins, kind, seq, payload) → ∀ s : State, s.link.deaf = false →
    exec i s = .next ((s.frameEnds pins).acceptBytes kind seq payload pins.wp)) ∧
  ∀ (e : State) (kind seq : Byte) (payload : List Byte) (wp : Bool),
    let check := frameCheck kind seq payload
    let held := fun q : Reply => .reply q ∈ e.link.waiting ∨ e.link.tx = some (.reply q)
    let same := fun q : Reply => q.seq = seq ∧ q.check = check
    let cached := fun old : CacheEntry => e.link.cache.find? (fun x => x.seq == seq) = some old
    (∀ q, seq ≠ 0#8 → held q → same q → e.acceptBytes kind seq payload wp = e.finish) ∧
    ((∀ q, held q → ¬same q) → seq ≠ 0#8 → ∀ old, cached old → old.check = check →
      e.link.waiting.countP Outgoing.isReply < 4 →
      e.acceptBytes kind seq payload wp = State.finish (e.place
        (.reply { seq := seq, check := check, frame := old.frame, full := false }))) ∧
    ((∀ q, held q → ¬same q) → seq ≠ 0#8 → ∀ old, cached old → old.check ≠ check →
      e.acceptBytes kind seq payload wp = State.acceptBytes
        { e with link := { e.link with cache := e.link.cache.filter fun x => x.seq != seq } }
        kind seq payload wp) ∧
    (seq = 0#8 ∨ ((∀ q, held q → ¬same q) ∧ ∀ old, cached old → old.check = check) →
      4 ≤ e.link.waiting.countP Outgoing.isReply →
      ((∀ f, .refusal f ∉ e.link.waiting) → e.acceptBytes kind seq payload wp = State.finish
        (e.place (.refusal (mkFrame 0xFF#8 seq [0x13#8, kind])))) ∧
      ((∃ f, .refusal f ∈ e.link.waiting) → e.acceptBytes kind seq payload wp = State.finish
        { e with reports := e.reports.make (.linkFault .overrun) }))

/-- TRANSMISSION_END (R120, R122, R127): the line is free and the arbiter chooses; a reply to a sequence above 0
enters the retry cache in place of any entry of that sequence, the oldest leaving a full cache, and the reply of
a RESET FULL makes the reset due (FULL_RESET is a row of its own, assumption log 15). With nothing in
transmission nothing changes (assumption log 7). -/
def Obligations.TransmissionEnds : Prop :=
  ∀ s : State,
    (s.link.tx = none → exec .transmissionEnd s = .next s) ∧
    (∀ f, s.link.tx = some (.refusal f) ∨ s.link.tx = some (.report f) →
      exec .transmissionEnd s = .next (State.finish { s with link := { s.link with tx := none } })) ∧
    (∀ q : Reply, s.link.tx = some (.reply q) →
      let kept := s.link.cache.filter fun x => x.seq != q.seq
      exec .transmissionEnd s = .next (State.finish
        { s with link := { s.link with
            tx := none, fullResetDue := s.link.fullResetDue || q.full,
            cache := if q.seq = 0#8 then s.link.cache
              else (if kept.length < 4 then kept else kept.tail) ++
                [{ seq := q.seq, check := q.check, frame := q.frame }] } }))

/-- The arbiter (R122, R138, R142, R144, R146, R148, R181): while the line is busy it starts nothing, and
neither does it between the last character of a RESET FULL reply and the reset, a row of its own (the model's
choice, assumption log 15); free, it takes the reply or refusal filled first, else the completion report, which makes the store engine IDLE,
else the head of the ordinary queue, with REPORTS_LOST where losses are counted. The departure of POWER_UP
makes the engine IDLE and forms the autostart list. The frame of a report takes the next report sequence and has
the payload of Table 7-11, with the codes of Table 7-6 (R130, R131, R137). -/
def Obligations.ArbiterOrder : Prop :=
  (∀ s : State,
    (s.link.tx.isSome = true ∨ s.link.fullResetDue = true → s.finish = s.drivePorts) ∧
    (s.link.tx = none → s.link.fullResetDue = false →
      (∀ o rest, s.link.waiting = o :: rest → s.finish = State.drivePorts
        { s with link := { s.link with waiting := rest, tx := some o } }) ∧
      (∀ q, s.link.waiting = [] → s.reports.completion = some q → s.finish = State.drivePorts
        { s with link := { s.link with tx := some (.report (reportFrame s.reports.nextSeq q)) },
                 reports := { s.reports with completion := none, nextSeq := s.reports.nextSeq + 1#8 },
                 store := { s.store with engine := .idle } }) ∧
      (s.link.waiting = [] → s.reports.completion = none → s.reports.queue = [] →
        s.finish = s.drivePorts) ∧
      ∀ q rest, s.link.waiting = [] → s.reports.completion = none → s.reports.queue = q :: rest →
        s.finish.link =
          { s.link with tx := some (.report (reportFrame s.reports.nextSeq q)) } ∧
        s.finish.reports = { s.reports with
          queue := if 0 < s.reports.lost then rest ++ [⟨.reportsLost s.reports.lost, 1⟩] else rest,
          lost := 0, nextSeq := s.reports.nextSeq + 1#8,
          begun := min s.reports.begun (rest.countP Report.isHopBegin) } ∧
        (isPowerUp q = false → s.finish.store = s.store ∧ s.finish.loader = s.loader) ∧
        (isPowerUp q = true → s.finish.store = { s.store with engine := .idle } ∧
          s.finish.loader.ctx = s.loader.ctx ∧ s.finish.loader.autoPos = 0 ∧
          s.finish.loader.auto.map AutoArea.area =
            ((List.finRange 8).filter fun a => (s.store.dir a).autostartRec.isSome) ∧
          ∀ before x after, s.finish.loader.auto = before ++ x :: after →
            (x.chosen = true ↔ ∀ y ∈ before, y.chan ≠ x.chan) ∧
            (s.store.dir x.area).commit.map CommitRec.chan = some x.chan))) ∧
  (∀ (n : Byte) (k : Nat) (c : Chan) (slot : Fin 48) (tag : Option (BitVec 16)) (count : BitVec 48)
      (seq detail : Byte) (area : Fin 8) (st : Status),
    let tagged := fun rest : List Byte =>
      (match tag with | none => [0#8, 0#8, 0#8] | some t => 1#8 :: be16 t) ++ rest
    let sent := fun (body : ReportBody) (kind : Byte) (payload : List Byte) =>
      reportFrame n ⟨body, k⟩ = mkFrame kind n payload
    (∀ cause areas, sent (.powerUp cause areas) 0x80#8
      (resetCauseCode cause :: areas.map areaStateCode)) ∧
    sent (.hopBegin c slot tag count) 0x81#8 (chanCode c :: b8 slot.val :: tagged (be48 count)) ∧
    (∀ policy, sent (.underrun c policy) 0x82#8 [b8 k, chanCode c, policyCode policy]) ∧
    sent (.lateStart c tag count) 0x83#8 (b8 k :: chanCode c :: tagged (be48 count)) ∧
    (∀ x, sent (.channelState c x) 0x84#8 [chanCode c, chanStateCode x]) ∧
    (∀ x h, sent (.gateState c x h) 0x85#8 [chanCode c, gateStateCode x, holdCode h]) ∧
    (∀ cause, sent (.epochEvent cause) 0x86#8 [b8 k, epochCauseCode cause]) ∧
    sent (.pairTimeout c tag) 0x87#8 (b8 k :: chanCode c :: tagged []) ∧
    (∀ op offset, sent (.storeDone seq op area st detail offset) 0x88#8
      ([seq, storeKindCode op, b8 area.val, statusCode st, detail] ++ be16 offset)) ∧
    sent (.loadDone seq c area st detail) 0x89#8
      [seq, chanCode c, b8 area.val, statusCode st, detail] ∧
    (∀ reason, sent (.linkFault reason) 0x8A#8 [b8 k, faultReasonCode reason]) ∧
    ∀ lost, sent (.reportsLost lost) 0x8B#8 (be16 (BitVec.ofNat 16 lost))) ∧
  [.A, .B].map chanCode = [0#8, 1#8] ∧
  [.cold, .request].map resetCauseCode = [0#8, 1#8] ∧
  [.blank, .opened, .valid, .damaged].map areaStateCode = [0#8, 1#8, 2#8, 3#8] ∧
  [.hold, .squelch, .stop].map policyCode = [0#8, 1#8, 2#8] ∧
  [.idle, .loading, .waiting, .dwell, .overstay, .switching, .ending .idle, .ending .waiting].map
    chanStateCode = [0#8, 1#8, 2#8, 3#8, 4#8, 5#8, 6#8, 7#8] ∧
  [.opened, .closing, .closed, .opening].map gateStateCode = [0#8, 1#8, 2#8, 3#8] ∧
  (∀ (h : HoldSet) (i : Nat), i < 8 → (holdCode h).getLsbD i =
    ([h.host, h.line, h.blank, h.ending, h.noHop].getD i false)) ∧
  [.request, .sync, .wrap].map epochCauseCode = [0#8, 1#8, 2#8] ∧
  [.erase, .write, .commit, .revoke].map storeKindCode = [0#8, 1#8, 2#8, 3#8] ∧
  [.length, .timeout, .check, .break_, .overrun].map faultReasonCode = [0#8, 1#8, 2#8, 3#8, 4#8] ∧
  [.ok, .areaState, .notIdle, .imageInvalid, .corrupt, .slotConflict, .dwellShort, .cancelled].map
    statusCode = [0x00#8, 0x32#8, 0x25#8, 0x35#8, 0x36#8, 0x37#8, 0x23#8, 0x38#8]

/-- The resets (R109, R110, R127, R129, R150, R167, Table 10-3): every block at its reset value, the rate by the
straps (Table 6-1), the scan begun, and the areas and the directory kept. A cold reset leaves the operation it
cuts short as far as it had gone: chunks of an erase from the highest down, bytes of a chunk, of a commit record
or of a revoke record, and areas of a scan; DSTRB goes on in each sample period of the reset (the model's
operands, assumption log 16). The bytes and areas reached by then, a revoke record with the image CRC of the
directory's record, and the ports of a FULL_RESET with SCLK stopped, which comes after the events of the last
period, or where no sample period is open, in which they stand, are the model's choices (assumption logs 40, 17,
42, 9). A FULL_RESET that is not due does not occur (assumption log 7). -/
def Obligations.ResetsAct : Prop :=
  ∀ (s : State) (straps : Straps),
    let rate : LinkRate := match straps.rate1, straps.rate0 with
      | false, false => .r115200
      | false, true => .r460800
      | true, false => .r921600
      | true, true => .r2000000
    (∀ span : ColdSpan,
      let n := span.progress
      let after := fun (mem : List Host.Cell) (dirs : Vector Dir 8) =>
        { State.reset with
          link := { State.reset.link with rate := rate },
          ports := { douta := 0#16, doutb := 0#16, priorA := 0#16, priorB := 0#16,
                     strobes := s.ports.strobes + span.periods, periodOpen := false },
          store := { mem := mem, dirs := dirs, engine := .scanning, op := some (.scan .cold) },
          pending := s.pending }
      let leaves := fun mem : List Host.Cell =>
        exec (.coldReset straps span) s = .next (after mem s.store.dirs)
      (s.store.op = none → leaves s.store.mem) ∧
      (∀ a seq, s.store.op = some (.erase a seq) → n ≤ 64 →
        leaves (memErase s.store.mem (4096 * a.val + 64 * (64 - n)) (64 * n))) ∧
      (∀ a seq chunk data, s.store.op = some (.write a seq chunk data) →
        leaves (memWrites s.store.mem (4096 * a.val + 64 * chunk) (data.take n))) ∧
      (∀ a seq au c sa, s.store.op = some (.commit a seq au c sa none) → leaves s.store.mem) ∧
      (∀ a seq au c sa rec, s.store.op = some (.commit a seq au c sa (some rec)) →
        leaves (memWrites s.store.mem (4096 * a.val + 3968) ((commitRecordBytes rec).take n))) ∧
      (∀ a seq rec, s.store.op = some (.revoke a seq) → (s.store.dir a).commit = some rec →
        leaves (memWrites s.store.mem (4096 * a.val + 4032)
          ((revokeRecordBytes rec.imageCrc).take n))) ∧
      (∀ cause, s.store.op = some (.scan cause) → ∃ (dirs : Vector Dir 8) (t : State),
        exec (.coldReset straps span) s = .next (after s.store.mem dirs) ∧
        exec .scanComplete s = .next t ∧
        ∀ a : Fin 8, dirs.get a = if a.val < n then t.store.dir a else s.store.dir a)) ∧
    (∀ stopped : Bool,
      (s.link.fullResetDue = false → exec (.fullReset straps stopped) s = .next s) ∧
      (s.link.fullResetDue = true → ∃ t : State, exec (.fullReset straps stopped) s = .next t ∧
        t = { State.reset with
          link := { State.reset.link with rate := rate }, ports := t.ports,
          store := { mem := s.store.mem, dirs := s.store.dirs, engine := .scanning,
                     op := some (.scan .request) },
          pending := s.pending } ∧
        (s.ports.periodOpen = true → stopped = false →
          t.ports = { s.ports with douta := 0#16, doutb := 0#16 }) ∧
        (s.ports.periodOpen = false → stopped = false → t.ports = s.ports) ∧
        (stopped = true → t.ports = { s.closePeriod.ports with periodOpen := false })))

/-! The report block. -/

/-- A report of the KEEP class (R139): POWER_UP or HOP_BEGIN, made while the block is open and its kind is
enabled, joins the tail, equal ones apart, or is counted as lost with 16 waiting, up to 65,535 (the note of how
many HOP_BEGINs the period has is the model's, assumption log 10). Made while the block is closed, or of a kind
that is disabled, a report of any kind is discarded (R137). A report of the COMPLETION class (R144), STORE_DONE
or LOAD_DONE, goes to the completion place whatever the mask says and however full the queue is, and the queue
and the lost count stay. The classes are those of Table 8-1. The eight maskable kinds are those of R137, and
each kind has the mask bit of its code (Table 7-3, R147). -/
def Obligations.KeepJoins : Prop :=
  ∀ (b : ReportBlock) (r : ReportBody),
    (b.isOpen = false ∨ (maskable r = true ∧ b.mask.getLsbD (reportIndex r) = false) →
      b.make r = b) ∧
    (b.isOpen = true → (maskable r = true → b.mask.getLsbD (reportIndex r) = true) →
      (∃ cause areas, r = .powerUp cause areas) ∨ (∃ c slot tag count, r = .hopBegin c slot tag count) →
      (b.queue.length < 16 → b.make r = { b with
        queue := b.queue ++ [⟨r, 1⟩], begun := b.begun + if reportIndex r = 1 then 1 else 0 }) ∧
      (16 ≤ b.queue.length → b.make r = { b with lost := min 65535 (b.lost + 1) })) ∧
    (b.isOpen = true →
      (∃ seq kind a st detail offset, r = .storeDone seq kind a st detail offset) ∨
        (∃ seq c a st detail, r = .loadDone seq c a st detail) →
      b.make r = { b with completion := some ⟨r, 1⟩ }) ∧
    (reportClass r = .completion ↔
      (∃ seq kind a st detail offset, r = .storeDone seq kind a st detail offset) ∨
        (∃ seq c a st detail, r = .loadDone seq c a st detail)) ∧
    ((∃ cause areas, r = .powerUp cause areas) ∨ (∃ c slot tag count, r = .hopBegin c slot tag count) →
      reportClass r = .keep) ∧
    (maskable r, reportIndex r) = (match r with
      | .powerUp .. => (false, 0)
      | .hopBegin .. => (true, 1)
      | .underrun .. => (true, 2)
      | .lateStart .. => (true, 3)
      | .channelState .. => (true, 4)
      | .gateState .. => (true, 5)
      | .epochEvent .. => (true, 6)
      | .pairTimeout .. => (true, 7)
      | .storeDone .. => (false, 8)
      | .loadDone .. => (false, 9)
      | .linkFault .. => (true, 10)
      | .reportsLost .. => (false, 11))

/-- A report of the MERGE class (R140), UNDERRUN, LATE_START, EPOCH_EVENT, PAIR_TIMEOUT or LINK_FAULT and no
other (Table 8-1): one of its kind and key that waits takes the occurrence into its repeat count, up to 255, and
keeps its place and its other fields; else it joins or is lost. The bounds and the one report for each key are
kept. Reports of two kinds never have one key. -/
def Obligations.MergeFolds : Prop :=
  (∀ (b : ReportBlock) (r : ReportBody), b.isOpen = true →
    (maskable r = true → b.mask.getLsbD (reportIndex r) = true) → reportClass r = .merge →
    (∀ before q after, b.queue = before ++ q :: after → sameKey q.body r = true →
      (∀ x ∈ before, sameKey x.body r = false) →
      b.make r = { b with
        queue := before ++ { q with repeats := min 255 (q.repeats + 1) } :: after }) ∧
    ((∀ x ∈ b.queue, sameKey x.body r = false) →
      (b.queue.length < 16 →
        b.make r = { b with queue := b.queue ++ [⟨r, 1⟩] }) ∧
      (16 ≤ b.queue.length → b.make r = { b with lost := min 65535 (b.lost + 1) })) ∧
    (b.lawful = true → (b.make r).lawful = true)) ∧
  (∀ r : ReportBody, reportClass r = .merge ↔
    (∃ c p, r = .underrun c p) ∨ (∃ c tag n, r = .lateStart c tag n) ∨ (∃ cause, r = .epochEvent cause) ∨
      (∃ c tag, r = .pairTimeout c tag) ∨ ∃ reason, r = .linkFault reason) ∧
  (∀ a b : ReportBody, sameKey a b = true → reportIndex a = reportIndex b) ∧
  (∀ c d p q, sameKey (.underrun c p) (.underrun d q) = (c == d)) ∧
  (∀ c d t u m n, sameKey (.lateStart c t m) (.lateStart d u n) = (c == d)) ∧
  (∀ c d t u, sameKey (.pairTimeout c t) (.pairTimeout d u) = (c == d)) ∧
  (∀ x y, sameKey (.epochEvent x) (.epochEvent y) = (x == y)) ∧
  (∀ x y, sameKey (.linkFault x) (.linkFault y) = (x == y))

/-- A report of the REPLACE class (R141), CHANNEL_STATE or GATE_STATE and no other (Table 8-1): one of its kind
and channel that waits takes its fields and keeps its place; else it joins or is lost. The one report for each
key is kept. Reports of two kinds never have one key. -/
def Obligations.ReplaceOverwrites : Prop :=
  (∀ (b : ReportBlock) (r : ReportBody), b.isOpen = true →
    (maskable r = true → b.mask.getLsbD (reportIndex r) = true) → reportClass r = .replace →
    (∀ before q after, b.queue = before ++ q :: after → sameKey q.body r = true →
      (∀ x ∈ before, sameKey x.body r = false) →
      b.make r = { b with queue := before ++ { q with body := r } :: after }) ∧
    ((∀ x ∈ b.queue, sameKey x.body r = false) →
      (b.queue.length < 16 → b.make r = { b with queue := b.queue ++ [⟨r, 1⟩] }) ∧
      (16 ≤ b.queue.length → b.make r = { b with lost := min 65535 (b.lost + 1) })) ∧
    (b.lawful = true → (b.make r).lawful = true)) ∧
  (∀ r : ReportBody, reportClass r = .replace ↔
    (∃ c x, r = .channelState c x) ∨ ∃ c x h, r = .gateState c x h) ∧
  (∀ a b : ReportBody, sameKey a b = true → reportIndex a = reportIndex b) ∧
  (∀ c d x y, sameKey (.channelState c x) (.channelState d y) = (c == d)) ∧
  (∀ c d x y g h, sameKey (.gateState c x g) (.gateState d y h) = (c == d))
end

