-- ==== Sys2Proof/Laws/State.lean ====
section
/-! SUPPORT. What each update of the state leaves as it is, field by field, so that later proofs unfold no
record update. -/

namespace Sys2Proof.Machine

variable (s : State)

@[simp] theorem State.chan_A : s.chan .A = s.chA := rfl
@[simp] theorem State.chan_B : s.chan .B = s.chB := rfl
@[simp] theorem chanOther_A : chanOther .A = .B := rfl
@[simp] theorem chanOther_B : chanOther .B = .A := rfl
@[simp] theorem State.setChan_chan_same (c : Chan) (x : Channel) : (s.setChan c x).chan c = x := by
  cases c <;> rfl
@[simp] theorem State.setChan_chan_other (c : Chan) (x : Channel) :
    (s.setChan c x).chan (chanOther c) = s.chan (chanOther c) := by cases c <;> rfl
theorem State.setChan_chan (c d : Chan) (x : Channel) :
    (s.setChan c x).chan d = if d = c then x else s.chan d := by cases c <;> cases d <;> rfl
@[simp] theorem State.setChan_self (c : Chan) : s.setChan c (s.chan c) = s := by cases c <;> rfl
@[simp] theorem State.setChan_setChan (c : Chan) (x y : Channel) :
    (s.setChan c x).setChan c y = s.setChan c y := by cases c <;> rfl

@[simp] theorem State.setChan_slots (c : Chan) (x : Channel) : (s.setChan c x).slots = s.slots := by cases c <;> rfl
@[simp] theorem State.setChan_epoch (c : Chan) (x : Channel) : (s.setChan c x).epoch = s.epoch := by cases c <;> rfl
@[simp] theorem State.setChan_gateLine (c : Chan) (x : Channel) : (s.setChan c x).gateLine = s.gateLine := by cases c <;> rfl
@[simp] theorem State.setChan_gatePin (c : Chan) (x : Channel) : (s.setChan c x).gatePin = s.gatePin := by cases c <;> rfl
@[simp] theorem State.setChan_ports (c : Chan) (x : Channel) : (s.setChan c x).ports = s.ports := by cases c <;> rfl
@[simp] theorem State.setChan_reports (c : Chan) (x : Channel) : (s.setChan c x).reports = s.reports := by cases c <;> rfl
@[simp] theorem State.setChan_link (c : Chan) (x : Channel) : (s.setChan c x).link = s.link := by cases c <;> rfl
@[simp] theorem State.setChan_store (c : Chan) (x : Channel) : (s.setChan c x).store = s.store := by cases c <;> rfl
@[simp] theorem State.setChan_loader (c : Chan) (x : Channel) : (s.setChan c x).loader = s.loader := by cases c <;> rfl
@[simp] theorem State.setChan_pending (c : Chan) (x : Channel) : (s.setChan c x).pending = s.pending := by cases c <;> rfl

@[simp] theorem State.setGate_slots (c : Chan) (g : Gate) : (s.setGate c g).slots = s.slots := by cases c <;> rfl
@[simp] theorem State.setGate_epoch (c : Chan) (g : Gate) : (s.setGate c g).epoch = s.epoch := by cases c <;> rfl
@[simp] theorem State.setGate_gateLine (c : Chan) (g : Gate) : (s.setGate c g).gateLine = s.gateLine := by cases c <;> rfl
@[simp] theorem State.setGate_gatePin (c : Chan) (g : Gate) : (s.setGate c g).gatePin = s.gatePin := by cases c <;> rfl
@[simp] theorem State.setGate_ports (c : Chan) (g : Gate) : (s.setGate c g).ports = s.ports := by cases c <;> rfl
@[simp] theorem State.setGate_reports (c : Chan) (g : Gate) : (s.setGate c g).reports = s.reports := by cases c <;> rfl
@[simp] theorem State.setGate_link (c : Chan) (g : Gate) : (s.setGate c g).link = s.link := by cases c <;> rfl
@[simp] theorem State.setGate_store (c : Chan) (g : Gate) : (s.setGate c g).store = s.store := by cases c <;> rfl
@[simp] theorem State.setGate_loader (c : Chan) (g : Gate) : (s.setGate c g).loader = s.loader := by cases c <;> rfl
@[simp] theorem State.setGate_pending (c : Chan) (g : Gate) : (s.setGate c g).pending = s.pending := by cases c <;> rfl

@[simp] theorem State.setSlot_epoch (i : Fin 48) (x : Slot) : (s.setSlot i x).epoch = s.epoch := rfl
@[simp] theorem State.setSlot_chA (i : Fin 48) (x : Slot) : (s.setSlot i x).chA = s.chA := rfl
@[simp] theorem State.setSlot_chB (i : Fin 48) (x : Slot) : (s.setSlot i x).chB = s.chB := rfl
@[simp] theorem State.setSlot_gateLine (i : Fin 48) (x : Slot) : (s.setSlot i x).gateLine = s.gateLine := rfl
@[simp] theorem State.setSlot_gatePin (i : Fin 48) (x : Slot) : (s.setSlot i x).gatePin = s.gatePin := rfl
@[simp] theorem State.setSlot_ports (i : Fin 48) (x : Slot) : (s.setSlot i x).ports = s.ports := rfl
@[simp] theorem State.setSlot_reports (i : Fin 48) (x : Slot) : (s.setSlot i x).reports = s.reports := rfl
@[simp] theorem State.setSlot_link (i : Fin 48) (x : Slot) : (s.setSlot i x).link = s.link := rfl
@[simp] theorem State.setSlot_store (i : Fin 48) (x : Slot) : (s.setSlot i x).store = s.store := rfl
@[simp] theorem State.setSlot_loader (i : Fin 48) (x : Slot) : (s.setSlot i x).loader = s.loader := rfl
@[simp] theorem State.setSlot_pending (i : Fin 48) (x : Slot) : (s.setSlot i x).pending = s.pending := rfl

@[simp] theorem State.report_reports (r : ReportBody) :
    (s.report r).reports = s.reports.make r := rfl
@[simp] theorem State.report_slots (r : ReportBody) : (s.report r).slots = s.slots := rfl
@[simp] theorem State.report_epoch (r : ReportBody) : (s.report r).epoch = s.epoch := rfl
@[simp] theorem State.report_chA (r : ReportBody) : (s.report r).chA = s.chA := rfl
@[simp] theorem State.report_chB (r : ReportBody) : (s.report r).chB = s.chB := rfl
@[simp] theorem State.report_gateLine (r : ReportBody) : (s.report r).gateLine = s.gateLine := rfl
@[simp] theorem State.report_gatePin (r : ReportBody) : (s.report r).gatePin = s.gatePin := rfl
@[simp] theorem State.report_ports (r : ReportBody) : (s.report r).ports = s.ports := rfl
@[simp] theorem State.report_link (r : ReportBody) : (s.report r).link = s.link := rfl
@[simp] theorem State.report_store (r : ReportBody) : (s.report r).store = s.store := rfl
@[simp] theorem State.report_loader (r : ReportBody) : (s.report r).loader = s.loader := rfl
@[simp] theorem State.report_pending (r : ReportBody) : (s.report r).pending = s.pending := rfl

@[simp] theorem State.setEngine_slots (e : EngineState) : (s.setEngine e).slots = s.slots := rfl
@[simp] theorem State.setEngine_epoch (e : EngineState) : (s.setEngine e).epoch = s.epoch := rfl
@[simp] theorem State.setEngine_chA (e : EngineState) : (s.setEngine e).chA = s.chA := rfl
@[simp] theorem State.setEngine_chB (e : EngineState) : (s.setEngine e).chB = s.chB := rfl
@[simp] theorem State.setEngine_gateLine (e : EngineState) : (s.setEngine e).gateLine = s.gateLine := rfl
@[simp] theorem State.setEngine_gatePin (e : EngineState) : (s.setEngine e).gatePin = s.gatePin := rfl
@[simp] theorem State.setEngine_ports (e : EngineState) : (s.setEngine e).ports = s.ports := rfl
@[simp] theorem State.setEngine_reports (e : EngineState) : (s.setEngine e).reports = s.reports := rfl
@[simp] theorem State.setEngine_link (e : EngineState) : (s.setEngine e).link = s.link := rfl
@[simp] theorem State.setEngine_loader (e : EngineState) : (s.setEngine e).loader = s.loader := rfl
@[simp] theorem State.setEngine_pending (e : EngineState) : (s.setEngine e).pending = s.pending := rfl

@[simp] theorem State.setDir_slots (a : Fin 8) (d : Dir) : (s.setDir a d).slots = s.slots := rfl
@[simp] theorem State.setDir_epoch (a : Fin 8) (d : Dir) : (s.setDir a d).epoch = s.epoch := rfl
@[simp] theorem State.setDir_chA (a : Fin 8) (d : Dir) : (s.setDir a d).chA = s.chA := rfl
@[simp] theorem State.setDir_chB (a : Fin 8) (d : Dir) : (s.setDir a d).chB = s.chB := rfl
@[simp] theorem State.setDir_gateLine (a : Fin 8) (d : Dir) : (s.setDir a d).gateLine = s.gateLine := rfl
@[simp] theorem State.setDir_gatePin (a : Fin 8) (d : Dir) : (s.setDir a d).gatePin = s.gatePin := rfl
@[simp] theorem State.setDir_ports (a : Fin 8) (d : Dir) : (s.setDir a d).ports = s.ports := rfl
@[simp] theorem State.setDir_reports (a : Fin 8) (d : Dir) : (s.setDir a d).reports = s.reports := rfl
@[simp] theorem State.setDir_link (a : Fin 8) (d : Dir) : (s.setDir a d).link = s.link := rfl
@[simp] theorem State.setDir_loader (a : Fin 8) (d : Dir) : (s.setDir a d).loader = s.loader := rfl
@[simp] theorem State.setDir_pending (a : Fin 8) (d : Dir) : (s.setDir a d).pending = s.pending := rfl

@[simp] theorem State.setArm_slots (a : ArmState) : (s.setArm a).slots = s.slots := rfl
@[simp] theorem State.setArm_chA (a : ArmState) : (s.setArm a).chA = s.chA := rfl
@[simp] theorem State.setArm_chB (a : ArmState) : (s.setArm a).chB = s.chB := rfl
@[simp] theorem State.setArm_gateLine (a : ArmState) : (s.setArm a).gateLine = s.gateLine := rfl
@[simp] theorem State.setArm_gatePin (a : ArmState) : (s.setArm a).gatePin = s.gatePin := rfl
@[simp] theorem State.setArm_ports (a : ArmState) : (s.setArm a).ports = s.ports := rfl
@[simp] theorem State.setArm_reports (a : ArmState) : (s.setArm a).reports = s.reports := rfl
@[simp] theorem State.setArm_link (a : ArmState) : (s.setArm a).link = s.link := rfl
@[simp] theorem State.setArm_store (a : ArmState) : (s.setArm a).store = s.store := rfl
@[simp] theorem State.setArm_loader (a : ArmState) : (s.setArm a).loader = s.loader := rfl
@[simp] theorem State.setArm_pending (a : ArmState) : (s.setArm a).pending = s.pending := rfl

@[simp] theorem State.transmit_slots (o : Outgoing) : (s.transmit o).slots = s.slots := rfl
@[simp] theorem State.transmit_epoch (o : Outgoing) : (s.transmit o).epoch = s.epoch := rfl
@[simp] theorem State.transmit_chA (o : Outgoing) : (s.transmit o).chA = s.chA := rfl
@[simp] theorem State.transmit_chB (o : Outgoing) : (s.transmit o).chB = s.chB := rfl
@[simp] theorem State.transmit_gateLine (o : Outgoing) : (s.transmit o).gateLine = s.gateLine := rfl
@[simp] theorem State.transmit_gatePin (o : Outgoing) : (s.transmit o).gatePin = s.gatePin := rfl
@[simp] theorem State.transmit_ports (o : Outgoing) : (s.transmit o).ports = s.ports := rfl
@[simp] theorem State.transmit_reports (o : Outgoing) : (s.transmit o).reports = s.reports := rfl
@[simp] theorem State.transmit_store (o : Outgoing) : (s.transmit o).store = s.store := rfl
@[simp] theorem State.transmit_loader (o : Outgoing) : (s.transmit o).loader = s.loader := rfl
@[simp] theorem State.transmit_pending (o : Outgoing) : (s.transmit o).pending = s.pending := rfl

@[simp] theorem State.place_slots (o : Outgoing) : (s.place o).slots = s.slots := rfl
@[simp] theorem State.place_epoch (o : Outgoing) : (s.place o).epoch = s.epoch := rfl
@[simp] theorem State.place_chA (o : Outgoing) : (s.place o).chA = s.chA := rfl
@[simp] theorem State.place_chB (o : Outgoing) : (s.place o).chB = s.chB := rfl
@[simp] theorem State.place_gateLine (o : Outgoing) : (s.place o).gateLine = s.gateLine := rfl
@[simp] theorem State.place_gatePin (o : Outgoing) : (s.place o).gatePin = s.gatePin := rfl
@[simp] theorem State.place_ports (o : Outgoing) : (s.place o).ports = s.ports := rfl
@[simp] theorem State.place_reports (o : Outgoing) : (s.place o).reports = s.reports := rfl
@[simp] theorem State.place_store (o : Outgoing) : (s.place o).store = s.store := rfl
@[simp] theorem State.place_loader (o : Outgoing) : (s.place o).loader = s.loader := rfl
@[simp] theorem State.place_pending (o : Outgoing) : (s.place o).pending = s.pending := rfl

@[simp] theorem State.hunt_slots : (s.hunt).slots = s.slots := rfl
@[simp] theorem State.hunt_epoch : (s.hunt).epoch = s.epoch := rfl
@[simp] theorem State.hunt_chA : (s.hunt).chA = s.chA := rfl
@[simp] theorem State.hunt_chB : (s.hunt).chB = s.chB := rfl
@[simp] theorem State.hunt_gateLine : (s.hunt).gateLine = s.gateLine := rfl
@[simp] theorem State.hunt_gatePin : (s.hunt).gatePin = s.gatePin := rfl
@[simp] theorem State.hunt_ports : (s.hunt).ports = s.ports := rfl
@[simp] theorem State.hunt_reports : (s.hunt).reports = s.reports := rfl
@[simp] theorem State.hunt_store : (s.hunt).store = s.store := rfl
@[simp] theorem State.hunt_loader : (s.hunt).loader = s.loader := rfl
@[simp] theorem State.hunt_pending : (s.hunt).pending = s.pending := rfl

@[simp] theorem State.formAutostart_slots : (s.formAutostart).slots = s.slots := rfl
@[simp] theorem State.formAutostart_epoch : (s.formAutostart).epoch = s.epoch := rfl
@[simp] theorem State.formAutostart_chA : (s.formAutostart).chA = s.chA := rfl
@[simp] theorem State.formAutostart_chB : (s.formAutostart).chB = s.chB := rfl
@[simp] theorem State.formAutostart_gateLine : (s.formAutostart).gateLine = s.gateLine := rfl
@[simp] theorem State.formAutostart_gatePin : (s.formAutostart).gatePin = s.gatePin := rfl
@[simp] theorem State.formAutostart_ports : (s.formAutostart).ports = s.ports := rfl
@[simp] theorem State.formAutostart_reports : (s.formAutostart).reports = s.reports := rfl
@[simp] theorem State.formAutostart_link : (s.formAutostart).link = s.link := rfl
@[simp] theorem State.formAutostart_store : (s.formAutostart).store = s.store := rfl
@[simp] theorem State.formAutostart_pending : (s.formAutostart).pending = s.pending := rfl

@[simp] theorem State.drivePorts_slots : (s.drivePorts).slots = s.slots := by unfold State.drivePorts; split <;> rfl
@[simp] theorem State.drivePorts_epoch : (s.drivePorts).epoch = s.epoch := by unfold State.drivePorts; split <;> rfl
@[simp] theorem State.drivePorts_chA : (s.drivePorts).chA = s.chA := by unfold State.drivePorts; split <;> rfl
@[simp] theorem State.drivePorts_chB : (s.drivePorts).chB = s.chB := by unfold State.drivePorts; split <;> rfl
@[simp] theorem State.drivePorts_gateLine : (s.drivePorts).gateLine = s.gateLine := by unfold State.drivePorts; split <;> rfl
@[simp] theorem State.drivePorts_gatePin : (s.drivePorts).gatePin = s.gatePin := by unfold State.drivePorts; split <;> rfl
@[simp] theorem State.drivePorts_reports : (s.drivePorts).reports = s.reports := by unfold State.drivePorts; split <;> rfl
@[simp] theorem State.drivePorts_link : (s.drivePorts).link = s.link := by unfold State.drivePorts; split <;> rfl
@[simp] theorem State.drivePorts_store : (s.drivePorts).store = s.store := by unfold State.drivePorts; split <;> rfl
@[simp] theorem State.drivePorts_loader : (s.drivePorts).loader = s.loader := by unfold State.drivePorts; split <;> rfl
@[simp] theorem State.drivePorts_strobes : (s.drivePorts).ports.strobes = s.ports.strobes := by unfold State.drivePorts; split <;> rfl
@[simp] theorem State.drivePorts_periodOpen : (s.drivePorts).ports.periodOpen = s.ports.periodOpen := by unfold State.drivePorts; split <;> rfl
@[simp] theorem State.drivePorts_priorA : (s.drivePorts).ports.priorA = s.ports.priorA := by unfold State.drivePorts; split <;> rfl
@[simp] theorem State.drivePorts_priorB : (s.drivePorts).ports.priorB = s.ports.priorB := by unfold State.drivePorts; split <;> rfl
@[simp] theorem State.drivePorts_pending : (s.drivePorts).pending = s.pending := by unfold State.drivePorts; split <;> rfl


/-! The channel, the slot and the tone read through an update of another field. -/

@[simp] theorem State.setChan_slot (c : Chan) (x : Channel) (i : Fin 48) : (s.setChan c x).slot i = s.slot i := by cases c <;> rfl
@[simp] theorem State.setChan_toneOf (c : Chan) (x : Channel) (i : Fin 48) : (s.setChan c x).toneOf i = s.toneOf i := by cases c <;> rfl
@[simp] theorem State.setGate_slot (c : Chan) (g : Gate) (i : Fin 48) : (s.setGate c g).slot i = s.slot i := by cases c <;> rfl
@[simp] theorem State.setGate_toneOf (c : Chan) (g : Gate) (i : Fin 48) : (s.setGate c g).toneOf i = s.toneOf i := by cases c <;> rfl
@[simp] theorem State.setSlot_chan (i : Fin 48) (x : Slot) (c : Chan) : (s.setSlot i x).chan c = s.chan c := by cases c <;> rfl
@[simp] theorem State.setSlot_slot_same (i : Fin 48) (x : Slot) : (s.setSlot i x).slot i = x :=
  show (s.slots.set i.val x i.isLt)[i.val] = x by simp
theorem State.setSlot_slot_other {i j : Fin 48} (x : Slot) (h : j ≠ i) :
    (s.setSlot i x).slot j = s.slot j := by
  have h2 : (i : Nat) ≠ j := fun e => h (Fin.ext e.symm)
  show (s.slots.set i.val x i.isLt)[j.val] = s.slots[j.val]
  simp [h2]
@[simp] theorem State.report_chan (r : ReportBody) (c : Chan) : (s.report r).chan c = s.chan c := by cases c <;> simp [State.chan]
@[simp] theorem State.report_slot (r : ReportBody) (i : Fin 48) : (s.report r).slot i = s.slot i := by simp [State.slot]
@[simp] theorem State.setEngine_chan (e : EngineState) (c : Chan) : (s.setEngine e).chan c = s.chan c := by cases c <;> simp [State.chan]
@[simp] theorem State.setEngine_slot (e : EngineState) (i : Fin 48) : (s.setEngine e).slot i = s.slot i := by simp [State.slot]
@[simp] theorem State.setDir_chan (a : Fin 8) (d : Dir) (c : Chan) : (s.setDir a d).chan c = s.chan c := by cases c <;> simp [State.chan]
@[simp] theorem State.setDir_slot (a : Fin 8) (d : Dir) (i : Fin 48) : (s.setDir a d).slot i = s.slot i := by simp [State.slot]
@[simp] theorem State.setArm_chan (a : ArmState) (c : Chan) : (s.setArm a).chan c = s.chan c := by cases c <;> simp [State.chan]
@[simp] theorem State.setArm_slot (a : ArmState) (i : Fin 48) : (s.setArm a).slot i = s.slot i := by simp [State.slot]
@[simp] theorem State.transmit_chan (o : Outgoing) (c : Chan) : (s.transmit o).chan c = s.chan c := by cases c <;> simp [State.chan]
@[simp] theorem State.transmit_slot (o : Outgoing) (i : Fin 48) : (s.transmit o).slot i = s.slot i := by simp [State.slot]
@[simp] theorem State.place_chan (o : Outgoing) (c : Chan) : (s.place o).chan c = s.chan c := by cases c <;> simp [State.chan]
@[simp] theorem State.place_slot (o : Outgoing) (i : Fin 48) : (s.place o).slot i = s.slot i := by simp [State.slot]
@[simp] theorem State.hunt_chan (c : Chan) : (s.hunt).chan c = s.chan c := by cases c <;> simp [State.chan]
@[simp] theorem State.hunt_slot (i : Fin 48) : (s.hunt).slot i = s.slot i := by simp [State.slot]
@[simp] theorem State.formAutostart_chan (c : Chan) : (s.formAutostart).chan c = s.chan c := by cases c <;> simp [State.chan]
@[simp] theorem State.formAutostart_slot (i : Fin 48) : (s.formAutostart).slot i = s.slot i := by simp [State.slot]
@[simp] theorem State.drivePorts_chan (c : Chan) : (s.drivePorts).chan c = s.chan c := by cases c <;> simp [State.chan]
@[simp] theorem State.drivePorts_slot (i : Fin 48) : (s.drivePorts).slot i = s.slot i := by simp [State.slot]

end Sys2Proof.Machine
end

