-- ==== Sys2Proof/Laws/Ops.lean ====
section
/-! SUPPORT. Of each shared operation, once, everything it can do. -/

namespace Sys2Proof.Machine

/-! Requests. -/

/-- A request that is taken runs its owner's operation and is answered with what it gives. -/
theorem request_taken {s : State} {r : Req} {k : Kind} {payload : List Byte}
    (h : s.takes r k payload) (op : State → State × List Byte) :
    s.request r k payload op =
      State.replied (op (s.frameEnds r.pins)).1 r k payload (op (s.frameEnds r.pins)).2 := by
  obtain ⟨h1, h2, h3, h4, h5⟩ := h
  simp [State.request, h1, h2, State.acceptKind, State.acceptFrame, h4, h5, State.execute, answer, h3,
    State.replied]

/-- A deaf receiver takes no request. -/
theorem request_deaf {s : State} (h : s.link.deaf = true) (r : Req) (k : Kind) (payload : List Byte)
    (op : State → State × List Byte) : s.request r k payload op = s := by simp [State.request, h]

/-- While SCLK runs, the state in which a request is executed differs from the one before it in the receiver
alone. -/
theorem frameEnds_running {p : Pins} (h : p.sclkStopped = false) (s : State) : s.frameEnds p = s.hunt := by
  simp [State.frameEnds, State.noteClock, h]

/-- While SCLK is stopped, every event of the last period has come before a request (R50). -/
theorem frameEnds_stopped {p : Pins} (h : p.sclkStopped = true) (s : State) :
    s.frameEnds p =
      { s.hunt.closePeriod with ports := { s.hunt.closePeriod.ports with periodOpen := false } } := by
  simp [State.frameEnds, State.noteClock, h]

/-! The arbiter. -/

/-- The arbiter's four choices and none. -/
theorem arbitrate_cases (s : State) :
    ((s.link.tx.isSome || s.link.fullResetDue) = true ∧ s.arbitrate = s) ∨
    (s.link.tx = none ∧ s.link.fullResetDue = false ∧
      ((∃ o rest, s.link.waiting = o :: rest ∧
          s.arbitrate = State.transmit { s with link := { s.link with waiting := rest } } o) ∨
       (s.link.waiting = [] ∧ ∃ r, s.reports.completion = some r ∧ s.arbitrate = s.sendCompletion r) ∨
       (s.link.waiting = [] ∧ s.reports.completion = none ∧
          ∃ r rest, s.reports.queue = r :: rest ∧ s.arbitrate = s.sendHead r) ∨
       (s.link.waiting = [] ∧ s.reports.completion = none ∧ s.reports.queue = [] ∧ s.arbitrate = s))) := by
  unfold State.arbitrate
  cases ht : s.link.tx <;> cases hf : s.link.fullResetDue <;> simp
  cases hw : s.link.waiting <;> cases hc : s.reports.completion <;> cases hq : s.reports.queue <;>
    simp <;> exact ⟨_, _, ⟨rfl, rfl⟩, rfl⟩

/-! Gates. -/

@[simp] theorem gate_move_hold (ramp : Nat) (g : Gate) (h : HoldSet) : (g.move ramp h).hold = h := rfl

theorem moveGate_gate (s : State) (c : Chan) (g : Gate) : ((s.moveGate c g).chan c).gate = g := by
  unfold State.moveGate
  split <;> simp [State.setGate]

/-- A gate's move leaves the rest of its channel, the other channel and the slots. -/
theorem moveGate_chan (s : State) (c : Chan) (g : Gate) :
    (s.moveGate c g).chan c = { s.chan c with gate := g } := by
  unfold State.moveGate
  split <;> simp [State.setGate]

theorem moveGate_other (s : State) (c : Chan) (g : Gate) :
    (s.moveGate c g).chan (chanOther c) = s.chan (chanOther c) := by
  unfold State.moveGate
  split <;> simp [State.setGate]

@[simp] theorem moveGate_slots (s : State) (c : Chan) (g : Gate) : (s.moveGate c g).slots = s.slots := by
  unfold State.moveGate
  split <;> simp

@[simp] theorem moveGate_epoch (s : State) (c : Chan) (g : Gate) : (s.moveGate c g).epoch = s.epoch := by
  unfold State.moveGate
  split <;> simp

@[simp] theorem moveGate_store (s : State) (c : Chan) (g : Gate) : (s.moveGate c g).store = s.store := by
  unfold State.moveGate
  split <;> simp

@[simp] theorem moveGate_loader (s : State) (c : Chan) (g : Gate) :
    (s.moveGate c g).loader = s.loader := by
  unfold State.moveGate
  split <;> simp

@[simp] theorem moveGate_link (s : State) (c : Chan) (g : Gate) : (s.moveGate c g).link = s.link := by
  unfold State.moveGate
  split <;> simp

@[simp] theorem moveGate_gateLine (s : State) (c : Chan) (g : Gate) : (s.moveGate c g).gateLine = s.gateLine := by
  unfold State.moveGate
  split <;> simp

@[simp] theorem moveGate_gatePin (s : State) (c : Chan) (g : Gate) : (s.moveGate c g).gatePin = s.gatePin := by
  unfold State.moveGate
  split <;> simp

@[simp] theorem moveGate_ports (s : State) (c : Chan) (g : Gate) : (s.moveGate c g).ports = s.ports := by
  unfold State.moveGate
  split <;> simp

@[simp] theorem moveGate_pending (s : State) (c : Chan) (g : Gate) : (s.moveGate c g).pending = s.pending := by
  unfold State.moveGate
  split <;> simp

theorem applyHold_chan (s : State) (c : Chan) (h : HoldSet) :
    (s.applyHold c h).chan c =
      { s.chan c with gate := (s.chan c).gate.move (s.chan c).cfg.ramp h } := moveGate_chan s c _

theorem applyHold_other (s : State) (c : Chan) (h : HoldSet) :
    (s.applyHold c h).chan (chanOther c) = s.chan (chanOther c) := moveGate_other s c _

@[simp] theorem applyHold_slots (s : State) (c : Chan) (h : HoldSet) :
    (s.applyHold c h).slots = s.slots := moveGate_slots s c _
@[simp] theorem applyHold_epoch (s : State) (c : Chan) (h : HoldSet) :
    (s.applyHold c h).epoch = s.epoch := moveGate_epoch s c _
@[simp] theorem applyHold_store (s : State) (c : Chan) (h : HoldSet) :
    (s.applyHold c h).store = s.store := moveGate_store s c _
@[simp] theorem applyHold_loader (s : State) (c : Chan) (h : HoldSet) :
    (s.applyHold c h).loader = s.loader := moveGate_loader s c _
@[simp] theorem applyHold_link (s : State) (c : Chan) (h : HoldSet) :
    (s.applyHold c h).link = s.link := moveGate_link s c _
@[simp] theorem applyHold_gateLine (s : State) (c : Chan) (h : HoldSet) :
    (s.applyHold c h).gateLine = s.gateLine := moveGate_gateLine s c _
@[simp] theorem applyHold_gatePin (s : State) (c : Chan) (h : HoldSet) :
    (s.applyHold c h).gatePin = s.gatePin := moveGate_gatePin s c _
@[simp] theorem applyHold_ports (s : State) (c : Chan) (h : HoldSet) :
    (s.applyHold c h).ports = s.ports := moveGate_ports s c _
@[simp] theorem applyHold_pending (s : State) (c : Chan) (h : HoldSet) :
    (s.applyHold c h).pending = s.pending := moveGate_pending s c _

/-! A change of channel state. -/

theorem enter_chan (s : State) (c : Chan) (st : ChanState) :
    (s.enter c st).chan c = { s.chan c with st := st } := by
  unfold State.enter
  split
  · rename_i h; simp [← h]
  · simp

theorem enter_other (s : State) (c : Chan) (st : ChanState) :
    (s.enter c st).chan (chanOther c) = s.chan (chanOther c) := by
  unfold State.enter
  split <;> simp

@[simp] theorem enter_slots (s : State) (c : Chan) (st : ChanState) : (s.enter c st).slots = s.slots := by
  unfold State.enter
  split <;> simp

@[simp] theorem enter_epoch (s : State) (c : Chan) (st : ChanState) : (s.enter c st).epoch = s.epoch := by
  unfold State.enter
  split <;> simp

@[simp] theorem enter_store (s : State) (c : Chan) (st : ChanState) : (s.enter c st).store = s.store := by
  unfold State.enter
  split <;> simp

@[simp] theorem enter_loader (s : State) (c : Chan) (st : ChanState) :
    (s.enter c st).loader = s.loader := by
  unfold State.enter
  split <;> simp

@[simp] theorem enter_link (s : State) (c : Chan) (st : ChanState) : (s.enter c st).link = s.link := by
  unfold State.enter
  split <;> simp

@[simp] theorem enter_gateLine (s : State) (c : Chan) (st : ChanState) :
    (s.enter c st).gateLine = s.gateLine := by
  unfold State.enter
  split <;> simp

@[simp] theorem enter_gatePin (s : State) (c : Chan) (st : ChanState) :
    (s.enter c st).gatePin = s.gatePin := by
  unfold State.enter
  split <;> simp

@[simp] theorem enter_ports (s : State) (c : Chan) (st : ChanState) :
    (s.enter c st).ports = s.ports := by
  unfold State.enter
  split <;> simp

@[simp] theorem enter_pending (s : State) (c : Chan) (st : ChanState) :
    (s.enter c st).pending = s.pending := by
  unfold State.enter
  split <;> simp

/-! Pins. -/

theorem pin_slot (s : State) (i j : Fin 48) :
    (s.pin i).slot j = if j = i then { s.slot i with pins := (s.slot i).pins + 1 } else s.slot j := by
  by_cases h : j = i
  · subst h; simp [State.pin]
  · simp [State.pin, h, State.setSlot_slot_other]

theorem unpin_slot (s : State) (i j : Fin 48) :
    (s.unpin i).slot j = if j = i then { s.slot i with pins := (s.slot i).pins - 1 } else s.slot j := by
  by_cases h : j = i
  · subst h; simp [State.unpin]
  · simp [State.unpin, h, State.setSlot_slot_other]

/-- Everything pinning a list of entries does to a slot. -/
theorem pinAll_slot (s : State) (es : List HopEntry) (j : Fin 48) :
    (s.pinAll es).slot j =
      { s.slot j with pins := (s.slot j).pins + es.countP fun e => e.slot == j } := by
  induction es generalizing s with
  | nil => rfl
  | cons e es ih =>
    have h : s.pinAll (e :: es) = (s.pin e.slot).pinAll es := rfl
    rw [h, ih, pin_slot]
    by_cases hj : j = e.slot
    · subst hj; simp; omega
    · have : e.slot ≠ j := Ne.symm hj
      simp [hj, this]

theorem unpinAll_slot (s : State) (es : List HopEntry) (j : Fin 48) :
    (s.unpinAll es).slot j =
      { s.slot j with pins := (s.slot j).pins - es.countP fun e => e.slot == j } := by
  induction es generalizing s with
  | nil => rfl
  | cons e es ih =>
    have h : s.unpinAll (e :: es) = (s.unpin e.slot).unpinAll es := rfl
    rw [h, ih, unpin_slot]
    by_cases hj : j = e.slot
    · subst hj; simp; omega
    · have : e.slot ≠ j := Ne.symm hj
      simp [hj, this]

end Sys2Proof.Machine
end

