-- ==== Sys2Proof/Laws/Engine.lean ====
section
/-! SUPPORT. What each operation of the hop engine does, once, as the relations of Safety.lean: later proofs
cite these lemmas and unfold no operation. -/

namespace Sys2Proof.Machine

/-- A change of channel state reports the new one (R45). -/
theorem enter_reports (s : State) (c : Chan) (st : ChanState) :
    (s.enter c st).reports =
      if (s.chan c).st = st then s.reports else s.reports.make (.channelState c st) := by
  unfold State.enter
  split
  · rfl
  · simp

/-- A change of gate state reports the new one (R103). -/
theorem applyHold_reports (s : State) (c : Chan) (h : HoldSet) :
    (s.applyHold c h).reports =
      if ((s.chan c).gate.move (s.chan c).cfg.ramp h).st = (s.chan c).gate.st then s.reports
      else s.reports.make (.gateState c ((s.chan c).gate.move (s.chan c).cfg.ramp h).st h) := by
  unfold State.applyHold State.moveGate
  split <;> simp [*]

/-- A gate moves as `GateLeft` says (R88, R92, R93, R95). -/
theorem gate_move_left {g : Gate} (hl : g.lawful = true) (ramp : Nat) (h : HoldSet) :
    GateLeft ramp g h (g.move ramp h) := by
  refine ⟨rfl, rfl, fun he => ?_, fun h1 h2 => ?_, fun h1 h2 => ?_⟩
  · unfold Gate.move
    cases hg : g.hold.isEmpty <;> simp [← he, hg]
  · unfold Gate.move
    cases hs : g.st <;> simp [Gate.lawful, hs, h1] at hl <;> simp [h1, h2]
    · by_cases hr : ramp = 0 <;> simp [hr, hl, Config.fullGain]
    · by_cases hr : ramp = 0 <;> by_cases hz : g.gain = 0 <;> simp [hr, hz]
  · unfold Gate.move
    cases hs : g.st <;> simp [Gate.lawful, hs, h1] at hl <;> simp [h1, h2]
    all_goals by_cases hr : ramp = 0 <;> by_cases hz : g.gain = 1024 <;> simp_all [Config.fullGain]

/-- A gate that is CLOSED stays so while a reason is left. -/
theorem gate_move_shut {g : Gate} (hs : g.st = .closed) (ramp : Nat) {h : HoldSet}
    (he : h.isEmpty = false) : (g.move ramp h).st = .closed := by
  unfold Gate.move
  cases hg : g.hold.isEmpty <;> by_cases hr : ramp = 0 <;> simp [he, hr, hs]

/-- A gate that has moved keeps the gate's laws. -/
theorem gateLeft_lawful {ramp : Nat} {g g' : Gate} {h : HoldSet} (hl : g.lawful = true)
    (hg : GateLeft ramp g h g') : g'.lawful = true := by
  obtain ⟨h1, -, h3, h4, h5⟩ := hg
  cases he : h.isEmpty <;> cases hh : g.hold.isEmpty
  · obtain ⟨a, b⟩ := h3 (by rw [he, hh])
    cases hs : g.st <;> simp [Gate.lawful, hs, hh] at hl <;> simp [Gate.lawful, a, hs, h1, he, b, hl]
  · obtain ⟨a, b⟩ := h4 hh he
    by_cases hr : ramp = 0 ∨ g.gain = 0
    · rw [if_pos hr] at a
      have : g'.gain = 0 := by rw [b]; split <;> simp_all
      simp [Gate.lawful, a, h1, he, this]
    · rw [if_neg hr] at a
      have : g'.gain = g.gain := by rw [b, if_neg (fun hh => hr (.inl hh))]
      cases hs : g.st <;> simp [Gate.lawful, hs, hh] at hl <;> simp [Gate.lawful, a, h1, he, this, hl]
  · obtain ⟨a, b⟩ := h5 hh he
    by_cases hr : ramp = 0 ∨ g.gain = 1024
    · rw [if_pos hr] at a
      have : g'.gain = 1024 := by rw [b]; split <;> simp_all
      simp [Gate.lawful, a, h1, he, this, Config.fullGain]
    · rw [if_neg hr] at a
      have : g'.gain = g.gain := by rw [b, if_neg (fun hh => hr (.inl hh))]
      cases hs : g.st <;> simp [Gate.lawful, hs, hh] at hl <;> simp [Gate.lawful, a, h1, he, this, hl]
  · obtain ⟨a, b⟩ := h3 (by rw [he, hh])
    cases hs : g.st <;> simp [Gate.lawful, hs, hh] at hl <;> simp [Gate.lawful, a, hs, h1, he, b, hl]

/-- The slots after the retired hop's pin has fallen (R5, R46). -/
theorem unpinOpt_retired_slot (s : State) (c : Chan) (i : Fin 48) :
    (s.unpinOpt (s.chan c).retiredSlot).slot i =
      if (s.chan c).cfg.cycle = false ∧ (s.chan c).cur.map HopEntry.slot = some i
      then { s.slot i with pins := (s.slot i).pins - 1 } else s.slot i := by
  unfold Channel.retiredSlot State.unpinOpt
  by_cases hc : (s.chan c).cfg.cycle <;> simp only [hc, Bool.false_eq_true, if_true, if_false] <;> simp
  cases hcur : (s.chan c).cur with
  | none => simp
  | some old =>
    simp only [Option.map_some, unpin_slot, Option.some.injEq]
    by_cases hi : i = old.slot
    · subst hi; simp
    · simp [hi, Ne.symm hi]

/-! The epoch event that is due. -/

/-- An accumulator set anew for the count 0 leaves the rest of its channel (R48). -/
theorem realign_chan (s : State) (c d : Chan) :
    (s.realign c).chan d = { s.chan d with acc := ((s.realign c).chan d).acc } := by
  unfold State.realign
  split <;> cases c <;> cases d <;> rfl

@[simp] theorem realign_slots (s : State) (c : Chan) : (s.realign c).slots = s.slots := by
  unfold State.realign
  split <;> simp

@[simp] theorem realign_store (s : State) (c : Chan) : (s.realign c).store = s.store := by
  unfold State.realign
  split <;> simp

@[simp] theorem realign_loader (s : State) (c : Chan) : (s.realign c).loader = s.loader := by
  unfold State.realign
  split <;> simp

@[simp] theorem realign_link (s : State) (c : Chan) : (s.realign c).link = s.link := by
  unfold State.realign
  split <;> simp

@[simp] theorem realign_epoch (s : State) (c : Chan) : (s.realign c).epoch = s.epoch := by
  unfold State.realign
  split <;> simp

@[simp] theorem realign_reports (s : State) (c : Chan) : (s.realign c).reports = s.reports := by
  unfold State.realign
  split <;> simp

@[simp] theorem realign_gateLine (s : State) (c : Chan) : (s.realign c).gateLine = s.gateLine := by
  unfold State.realign
  split <;> simp

@[simp] theorem realign_gatePin (s : State) (c : Chan) : (s.realign c).gatePin = s.gatePin := by
  unfold State.realign
  split <;> simp

@[simp] theorem realign_ports (s : State) (c : Chan) : (s.realign c).ports = s.ports := by
  unfold State.realign
  split <;> simp

@[simp] theorem realign_pending (s : State) (c : Chan) : (s.realign c).pending = s.pending := by
  unfold State.realign
  split <;> simp

/-- An epoch event changes the count, the accumulators of the COHERENT switches of its period and the report
block, and leaves everything else (R16, R48). -/
theorem epochEvent_kept (s : State) (cause : EpochCause) :
    let t := s.epochEvent cause
    t.slots = s.slots ∧ t.store = s.store ∧ t.loader = s.loader ∧ t.link = s.link ∧
    t.epoch = { s.epoch with count := 0#48, wrapDue := false, wrapHeld := false } ∧
    t.reports = (s.reports.recount 0#48).make (.epochEvent cause) ∧
    ∀ c, t.chan c = { s.chan c with acc := (t.chan c).acc } := by
  refine ⟨by simp [State.epochEvent], by simp [State.epochEvent], by simp [State.epochEvent],
    by simp [State.epochEvent], by simp [State.epochEvent], by simp [State.epochEvent], fun c => ?_⟩
  simp only [State.epochEvent, State.report_chan]
  rw [realign_chan, realign_chan]
  cases c <;> rfl

/-- Past the reports to skip every HOP_BEGIN takes the count, and nothing else is changed. -/
theorem recountFrom_append (count : BitVec 48) (before after : List Report) :
    recountFrom count (before.countP Report.isHopBegin) (before ++ after) =
      before ++ recountFrom count 0 after := by
  induction before with
  | nil => rfl
  | cons q rest ih =>
    by_cases h : q.isHopBegin = true
    · simp [h, recountFrom, ih]
    · have hq : q.recounted count = q := by
        unfold Report.recounted
        unfold Report.isHopBegin at h
        split <;> simp_all
      cases hn : rest.countP Report.isHopBegin with
      | zero => rw [hn] at ih; simp [h, hn, recountFrom, hq, ih]
      | succ n => rw [hn] at ih; simp [h, hn, recountFrom, ih]

theorem recountFrom_zero (count : BitVec 48) (qs : List Report) :
    recountFrom count 0 qs = qs.map (Report.recounted count) := by
  induction qs with
  | nil => rfl
  | cons q rest ih => simp [recountFrom, ih]

theorem recounted_zero : Report.recounted 0#48 = atOrigin := by
  funext q
  unfold Report.recounted atOrigin
  cases q.body <;> rfl

/-- An epoch event does what `EpochTaken` says. -/
theorem epochEvent_taken (s : State) (cause : EpochCause) : EpochTaken s (s.epochEvent cause) cause := by
  obtain ⟨h1, h2, h3, h4, h5, h6, -⟩ := epochEvent_kept s cause
  refine ⟨h5, fun c => ?_, h1, h2, h3, h4, ?_, ?_, ?_, ?_, fun before after hq hb => ?_⟩
  · unfold State.epochEvent State.realign
    cases ha : s.chA.coherentNow <;> cases hb : s.chB.coherentNow <;> cases c <;>
      simp [State.chan, State.setChan, State.report, ha, hb, slotPhase]
  · simp [State.epochEvent]
  · simp [State.epochEvent]
  · simp [State.epochEvent]
  · simp [State.epochEvent]
  · have hr : s.reports.recount 0#48 = { s.reports with queue := before ++ after.map atOrigin } := by
      unfold ReportBlock.recount
      have : (s.reports.queue.countP Report.isHopBegin) - s.reports.begun =
          before.countP Report.isHopBegin := by rw [hq, List.countP_append]; omega
      rw [this, hq, recountFrom_append, recountFrom_zero, recounted_zero]
    rw [h6, hr]

/-- A period in which no epoch event is due is settled. -/
theorem settleEpoch_none {s : State} (h : s.epoch.eventDue = false) : s.settleEpoch = s := by
  simp [State.settleEpoch, h]

/-- Settling the epoch leaves every channel but its accumulator, the slots, the store, the loader and the
link. -/
theorem settleEpoch_kept (s : State) :
    let t := s.settleEpoch
    t.slots = s.slots ∧ t.store = s.store ∧ t.loader = s.loader ∧ t.link = s.link ∧
    ∀ c, t.chan c = { s.chan c with acc := (t.chan c).acc } := by
  unfold State.settleEpoch State.syncRise
  split
  · cases s.epoch.arm with
    | disarmed => exact ⟨rfl, rfl, rfl, rfl, fun c => by cases c <;> rfl⟩
    | once =>
      obtain ⟨h1, h2, h3, h4, -, -, h5⟩ := epochEvent_kept
        (State.setArm { s with epoch := { s.epoch with syncDue := false } } .disarmed) .sync
      exact ⟨h1, h2, h3, h4, fun c => by rw [h5 c]; cases c <;> rfl⟩
    | every =>
      obtain ⟨h1, h2, h3, h4, -, -, h5⟩ := epochEvent_kept
        { s with epoch := { s.epoch with syncDue := false } } .sync
      exact ⟨h1, h2, h3, h4, fun c => by rw [h5 c]; cases c <;> rfl⟩
  · exact ⟨rfl, rfl, rfl, rfl, fun c => by cases c <;> rfl⟩

/-- A settled epoch holds the count of the period (R14). -/
theorem settleEpoch_count (s : State) : s.settleEpoch.epoch.count = s.epoch.periodCount := by
  unfold State.settleEpoch Epoch.periodCount
  split
  · rename_i h
    have hd : s.epoch.arm ≠ .disarmed := by
      intro h'; simp [Epoch.eventDue, h'] at h
    unfold State.syncRise
    cases ha : s.epoch.arm with
    | disarmed => exact absurd ha hd
    | once => simp [epochEvent_kept]
    | every => simp [epochEvent_kept]
  · rfl

/-! The hop start. -/

/-- What a channel offers is its head. -/
theorem offered_of_offers {ch : Channel} {hop : HopEntry} {rest : List HopEntry}
    (h : ch.offers hop rest) : ch.offered = some hop := by
  rcases h with ⟨h1, h2⟩ | ⟨h1, h2, -⟩ <;> simp [Channel.offered, h1, h2]

/-- An offer does not read the state, the gate, the accumulator or the readiness of its channel. -/
theorem offers_congr {ch ch' : Channel} {hop : HopEntry} {rest : List HopEntry}
    (h : ch.offers hop rest) (h1 : ch'.selfHead = ch.selfHead) (h2 : ch'.cur = ch.cur)
    (h3 : ch'.queue = ch.queue) : ch'.offers hop rest := by
  unfold Channel.offers
  rw [h1, h2, h3]
  exact h

/-- The queue left behind the head taken (R25, R38). -/
theorem queueAfterTake_offers {ch : Channel} {hop : HopEntry} {rest : List HopEntry}
    (h : ch.offers hop rest) : ch.queueAfterTake =
      if ch.selfHead = false ∧ ch.cfg.cycle = true then rest ++ ch.cur.toList else rest := by
  rcases h with ⟨h1, h2⟩ | ⟨h1, -, h2⟩ <;> simp [Channel.queueAfterTake, h1, h2]

/-- A switch to a hop does what `Started` says (R46). -/
theorem switchTo_started {s : State} {c : Chan} {hop : HopEntry} {rest : List HopEntry}
    (ho : (s.chan c).offers hop rest) : Started s (s.switchTo c hop) c hop rest := by
  have hq := queueAfterTake_offers ho
  simp only [State.switchTo]
  generalize hs1 : (s.unpinOpt (s.chan c).retiredSlot).setChan c
    ((s.chan c).switched hop (s.toneOf hop.slot) s.epoch.count) = s1
  have a1 : s1.chan c = (s.chan c).switched hop (s.toneOf hop.slot) s.epoch.count := by simp [← hs1]
  have a2 : s1.chan (chanOther c) = s.chan (chanOther c) := by
    rw [← hs1]; simp [State.unpinOpt]; split <;> cases c <;> rfl
  have a3 : ∀ i, s1.slot i = (s.unpinOpt (s.chan c).retiredSlot).slot i := by
    intro i; rw [← hs1]; simp [State.slot]
  have a4 : s1.epoch = s.epoch ∧ s1.store = s.store ∧ s1.loader = s.loader ∧ s1.link = s.link ∧
      s1.reports = s.reports ∧ s1.gateLine = s.gateLine ∧ s1.gatePin = s.gatePin ∧
      s1.ports = s.ports ∧ s1.pending = s.pending := by
    rw [← hs1]; unfold State.unpinOpt; split <;> simp [State.unpin]
  generalize hs2 : s1.applyHold c { (s1.chan c).gate.hold with noHop := false, blank := false } = s2
  have c1 := applyHold_chan s1 c { (s1.chan c).gate.hold with noHop := false, blank := false }
  have c2 := applyHold_other s1 c { (s1.chan c).gate.hold with noHop := false, blank := false }
  have c3 := applyHold_reports s1 c { (s1.chan c).gate.hold with noHop := false, blank := false }
  rw [hs2] at c1 c2 c3
  have c4 : s2.slots = s1.slots ∧ s2.epoch = s1.epoch ∧ s2.store = s1.store ∧ s2.loader = s1.loader ∧
      s2.link = s1.link ∧ s2.gateLine = s1.gateLine ∧ s2.gatePin = s1.gatePin ∧ s2.ports = s1.ports ∧
      s2.pending = s1.pending := by rw [← hs2]; simp
  generalize hs3 : s2.enter c .dwell = s3
  have d1 := enter_chan s2 c .dwell
  have d2 := enter_other s2 c .dwell
  have d3 := enter_reports s2 c .dwell
  rw [hs3] at d1 d2 d3
  have d4 : s3.slots = s2.slots ∧ s3.epoch = s2.epoch ∧ s3.store = s2.store ∧ s3.loader = s2.loader ∧
      s3.link = s2.link ∧ s3.gateLine = s2.gateLine ∧ s3.gatePin = s2.gatePin ∧ s3.ports = s2.ports ∧
      s3.pending = s2.pending := by rw [← hs3]; simp
  have key : ∀ t : State, t.chan c = s3.chan c →
      t.chan (chanOther c) = s3.chan (chanOther c) → t.slots = s3.slots → t.epoch = s3.epoch →
      t.store = s3.store → t.loader = s3.loader → t.link = s3.link → t.gateLine = s3.gateLine →
      t.gatePin = s3.gatePin → t.ports = s3.ports → t.pending = s3.pending →
      t.reports = (if hop.report then s3.reports.make (.hopBegin c hop.slot hop.tag s.epoch.count)
        else s3.reports) → Started s t c hop rest := by
    intro t e1 e2 e3 e4 e5 e6 e7 e9 e10 e11 e12 e8
    have sl : ∀ i, t.slot i = s1.slot i := by intro i; simp [State.slot, e3, d4.1, c4.1]
    obtain ⟨b1, b2, b3, b4, b5, b6, b7, b8, b9⟩ := a4
    unfold Started
    rw [e1, d1, c1, a1, e2, d2, c2, a2, e8, d3, c3, c1, a1]
    simp only [e4, e5, e6, e7, e9, e10, e11, e12, d4, c4, b1, b2, b3, b4, b5, b6, b7, b8, b9]
    repeat' apply And.intro
    all_goals first
      | (simp [Channel.switched, hq, sl, a3, unpinOpt_retired_slot]; done)
      | (cases hm : hop.mode <;> simp [Channel.switched, switchAcc, slotPhase, hm]; done)
      | (intro hl; exact gate_move_left hl _ _)
  split
  · rename_i hr
    apply key <;> simp [hr]
  · rename_i hr
    apply key <;> simp [hr]

/-- A hop start settles the epoch and does what `Started` says (R14, R46). -/
theorem hopStart_started {s : State} {c : Chan} {hop : HopEntry} {rest : List HopEntry}
    (h : (s.chan c).offers hop rest) : Started s.settleEpoch (s.hopStart c) c hop rest := by
  obtain ⟨-, -, -, -, hc⟩ := settleEpoch_kept s
  unfold State.hopStart
  rw [offered_of_offers h]
  exact switchTo_started (offers_congr h (by rw [hc c]) (by rw [hc c]) (by rw [hc c]))

/-- A state whose epoch is a settled one is settled. -/
theorem settleEpoch_of_settled {s u : State} (h : u.epoch = s.settleEpoch.epoch) : u.settleEpoch = u := by
  apply settleEpoch_none
  rw [h]
  unfold State.settleEpoch State.syncRise
  split
  · cases ha : s.epoch.arm with
    | disarmed => rfl
    | once =>
      show (State.epoch (State.epochEvent _ _)).eventDue = false
      rw [(epochEvent_kept _ _).2.2.2.2.1]
      rfl
    | every =>
      show (State.epoch (State.epochEvent _ _)).eventDue = false
      rw [(epochEvent_kept _ _).2.2.2.2.1]
      rfl
  · rename_i h'
    simpa using h'

/-! The moves of a channel. -/

/-- A change of channel state, and then of the hold set (R45, R88). -/
theorem enter_applyHold_moved {s : State} {c : Chan} (x : Channel) (st : ChanState) (h : HoldSet)
    (h1 : x.st = (s.chan c).st) (h2 : x.gate = (s.chan c).gate)
    (h3 : x.cfg = (s.chan c).cfg) :
    Moved s (((s.setChan c x).enter c st).applyHold c h) c { x with st := st } h := by
  refine ⟨(s.chan c).gate.move (s.chan c).cfg.ramp h, rfl, fun hl => gate_move_left hl _ _, ?_⟩
  unfold State.applyHold State.moveGate State.enter State.setGate State.report
  by_cases ha : (s.chan c).st = st <;>
    by_cases hb : ((s.chan c).gate.move (s.chan c).cfg.ramp h).st = (s.chan c).gate.st <;>
    cases c <;> simp_all [State.setChan, State.chan]
  all_goals first
    | (cases x; simp_all; done)
    | (simp [eq_comm] at ha; simp_all; done)

theorem waitOnHead_waited (s : State) (c : Chan) : Waited s (s.waitOnHead c) c := by
  unfold Waited State.waitOnHead State.enter State.report
  cases hc : (s.chan c).cur.isSome <;> by_cases hs : (s.chan c).st = .overstay <;> simp [hs]

theorem becomeReady_readied (s : State) (c : Chan) : Readied s (s.becomeReady c) c := by
  unfold Readied State.becomeReady
  refine ⟨fun h => by simp [h], fun h h' => by simp [h, h'], fun h h' => ?_⟩
  intro hopA restA hopB restB hA hB
  simp only [h, Bool.false_eq_true, if_false, State.setChan_chan_other, h', if_true]
  generalize s.setChan c _ = w at *
  refine ⟨w.hopStart .A, hopStart_started (s := w) (c := .A) hA, ?_⟩
  have hs := hopStart_started (s := w) (c := .A) hA
  obtain ⟨-, -, -, -, -, -, -, -, -, -, -, -, -, -, -, ho, -, he, -⟩ := hs
  have hk := (settleEpoch_kept w).2.2.2.2
  have hset : (w.hopStart .A).settleEpoch = w.hopStart .A := settleEpoch_of_settled he
  have hB' : ((w.hopStart .A).chan .B).offers hopB restB := by
    have : (w.hopStart .A).chan .B = w.settleEpoch.chan .B := ho
    rw [this, hk]
    exact offers_congr hB rfl rfl rfl
  have := hopStart_started hB'
  rwa [hset] at this

/-- What `Moved` makes of its channel. -/
theorem moved_chan {s t : State} {c : Chan} {x : Channel} {h : HoldSet} (m : Moved s t c x h) :
    ∃ g, t.chan c = { x with gate := g } ∧
      ((s.chan c).gate.lawful = true → GateLeft (s.chan c).cfg.ramp (s.chan c).gate h g) := by
  obtain ⟨g, -, hg, rfl⟩ := m
  exact ⟨g, by cases c <;> rfl, hg⟩

/-- The entry into SWITCHING ends where the gate is not CLOSED, and goes on at once where it is (R52). -/
theorem enterSwitching_blanked (s : State) (c : Chan) :
    ∃ b, Blanked s b c ∧ ((b.chan c).gate.st ≠ .closed → s.enterSwitching c = b) ∧
      ((b.chan c).gate.st = .closed → s.enterSwitching c = b.switchClosed c) := by
  have h := enter_applyHold_moved (s := s) (c := c) (s.chan c) .switching
    { (s.chan c).gate.hold with blank := true } rfl rfl rfl
  rw [State.setChan_self] at h
  unfold State.enterSwitching
  simp only [enter_chan]
  generalize State.applyHold _ _ _ = b at h ⊢
  exact ⟨b, h, fun hc => by simp [State.gateClosed, hc], fun hc => by simp [State.gateClosed, hc]⟩

theorem blanked_offers {s b : State} {c : Chan} {hop : HopEntry} {rest : List HopEntry}
    (hb : Blanked s b c) (ho : (s.chan c).offers hop rest) : (b.chan c).offers hop rest := by
  obtain ⟨g, hg, -⟩ := moved_chan hb
  rw [hg]
  exact offers_congr ho rfl rfl rfl

/-- A head that is not PAIRED and is met starts, by way of SWITCHING where it is blank (R51, R52). -/
theorem headMet_met {s : State} {c : Chan} {hop : HopEntry} {rest : List HopEntry}
    (ho : (s.chan c).offers hop rest) (hp : hop.trigger ≠ .paired) :
    Met s (s.headMet c hop) c hop rest := by
  refine ⟨fun h => ?_, fun hb hc => ?_⟩
  · have : (hop.blank && !s.gateClosed c) = false := by
      rcases h with h | h <;> simp [State.gateClosed, h]
    unfold State.headMet
    simp only [this, Bool.false_eq_true, if_false]
    exact hopStart_started ho
  · have : (hop.blank && !s.gateClosed c) = true := by simp [State.gateClosed, hb, hc]
    unfold State.headMet
    simp only [this, if_true]
    obtain ⟨b, h1, h2, h3⟩ := enterSwitching_blanked s c
    refine ⟨b, h1, h2, fun hh => ?_⟩
    have ho' := blanked_offers h1 ho
    rw [h3 hh]
    unfold State.switchClosed
    rw [offered_of_offers ho']
    simp only [hp, if_false]
    exact hopStart_started ho'

/-- An evaluation of the head offered does what `Evaluated` says (Table 3-4). -/
theorem evaluateHop_evaluated {s : State} {c : Chan} {hop : HopEntry} {rest : List HopEntry} (kept : Bool)
    (ho : (s.chan c).offers hop rest) : Evaluated s (s.evaluateHop c hop kept) c hop rest kept := by
  have hk := (settleEpoch_kept s).2.2.2.2 c
  have ho' : (s.settleEpoch.chan c).offers hop rest := by
    rw [hk]; exact offers_congr ho rfl rfl rfl
  refine ⟨fun h => ?_, fun h => ?_, fun at_ h => ⟨fun hc => ?_, fun hc => ?_, fun hc => ?_⟩,
    fun h => ⟨fun hb hc => ?_, fun hc => ?_⟩⟩
  · simp only [State.evaluateHop, h]
    exact headMet_met ho (by simp [h])
  · simp only [State.evaluateHop, h]
    exact waitOnHead_waited s c
  · simp only [State.evaluateHop, h, hc, if_true]
    exact waitOnHead_waited _ c
  · simp only [State.evaluateHop, h, hc, BitVec.lt_irrefl, if_true, if_false]
    exact headMet_met ho' (by simp [h])
  · have h1 : ¬s.settleEpoch.epoch.count < at_ := by bv_omega
    have h2 : s.settleEpoch.epoch.count ≠ at_ := by bv_omega
    simp only [State.evaluateHop, h, h1, h2, if_false]
    exact headMet_met (by simpa using ho') (by simp [h])
  · have : (hop.blank && (!s.gateClosed c || kept)) = true := by
      rcases hc with hc | hc <;> simp [State.gateClosed, hb, hc]
    simp only [State.evaluateHop, h, this, if_true]
    obtain ⟨b, h1, h2, h3⟩ := enterSwitching_blanked s c
    refine ⟨b, h1, h2, fun hh => ?_⟩
    rw [h3 hh]
    unfold State.switchClosed
    rw [offered_of_offers (blanked_offers h1 ho)]
    simp only [h, if_true]
    exact becomeReady_readied b c
  · have : (hop.blank && (!s.gateClosed c || kept)) = false := by
      rcases hc with hc | ⟨h1, h2⟩
      · simp [hc]
      · simp [State.gateClosed, h1, h2]
    simp only [State.evaluateHop, h, this, Bool.false_eq_true, if_false]
    exact ⟨_, waitOnHead_waited s c, becomeReady_readied _ c⟩

/-- An evaluation offers the head of the queue, or in cycle mode with an empty queue the current hop (R38). -/
theorem evaluate_evaluated {s : State} {c : Chan} {hop : HopEntry} {rest : List HopEntry} (kept : Bool)
    (ho : ((s.offerHead c).chan c).offers hop rest) :
    Evaluated (s.offerHead c) (s.evaluate c kept) c hop rest kept := by
  have : s.evaluate c kept = (s.offerHead c).evaluateHop c hop kept := by
    simp only [State.evaluate, offered_of_offers ho]
  rw [this]
  exact evaluateHop_evaluated kept ho

/-- ENDING completes as `EndingDone` says (R64). -/
theorem endingComplete_done {s : State} {c : Chan} {dest : EndDest} (hs : (s.chan c).gate.st = .closed)
    (he : (s.chan c).st = .ending dest) : EndingDone s (s.endingComplete c dest) c dest := by
  have hu : ∀ d, (s.unpinOpt (s.chan c).retiredSlot).chan d = s.chan d := by
    intro d; unfold State.unpinOpt; split <;> cases d <;> rfl
  unfold EndingDone
  generalize hs1 : (s.unpinOpt (s.chan c).retiredSlot).setChan c (s.chan c).released = s1
  have a1 : s1.chan c = (s.chan c).released := by simp [← hs1]
  generalize hh : ({ (s1.chan c).gate.hold with noHop := true, ending := false } : HoldSet) = h
  have hne : h.isEmpty = false := by simp [← hh, HoldSet.isEmpty]
  have hmv := gate_move_shut hs (s.chan c).cfg.ramp hne
  have hw : ∀ st : ChanState, st ≠ .ending dest →
      (∀ i, ((s1.applyHold c h).enter c st).slot i =
        if (s.chan c).cfg.cycle = false ∧ (s.chan c).cur.map HopEntry.slot = some i
        then { s.slot i with pins := (s.slot i).pins - 1 } else s.slot i) ∧
      Moved { s with slots := ((s1.applyHold c h).enter c st).slots } ((s1.applyHold c h).enter c st) c
        { s.chan c with
          st := st, cur := none, dwell := 0,
          queue := if (s.chan c).cfg.cycle then (s.chan c).queue ++ (s.chan c).cur.toList
            else (s.chan c).queue } h := by
    intro st hst
    refine ⟨fun i => ?_, (s.chan c).gate.move (s.chan c).cfg.ramp h, rfl, fun hl => ?_, ?_⟩
    · rw [← unpinOpt_retired_slot]
      simp [State.slot, ← hs1]
    · have : State.chan { s with slots := ((s1.applyHold c h).enter c st).slots } c = s.chan c := by
        cases c <;> rfl
      rw [this] at hl ⊢
      exact gate_move_left hl _ _
    · have h1 : (s1.chan c).st = (s.chan c).st := by rw [a1]; rfl
      have h2 : (s1.chan c).gate = (s.chan c).gate := by rw [a1]; rfl
      have h3 : (s1.chan c).cfg = (s.chan c).cfg := by rw [a1]; rfl
      have h4 : s1.applyHold c h =
          s1.setGate c ((s.chan c).gate.move (s.chan c).cfg.ramp h) := by
        unfold State.applyHold State.moveGate
        rw [h2, h3, if_pos (by rw [hmv, hs])]
      have h5 : ((s1.applyHold c h).chan c).st = .ending dest := by
        rw [h4]; simp [State.setGate, h1, he]
      have h6 : (s1.applyHold c h).enter c st =
          ((s1.applyHold c h).setChan c { (s1.applyHold c h).chan c with st := st }).report
            (.channelState c st) := by
        unfold State.enter
        rw [h5, if_neg (Ne.symm hst)]
      rw [h6, h4, ← hs1]
      unfold State.unpinOpt
      split <;> cases c <;>
        simp_all [State.setGate, State.report, State.chan, State.setChan, State.unpin, State.setSlot,
          Channel.released]
  have hfin : ({ (s.chan c).gate.hold with noHop := true, ending := false } : HoldSet) = h := by
    rw [← hh, a1]; rfl
  cases dest with
  | idle =>
    have hc : s.endingComplete c .idle = (s1.applyHold c h).enter c .idle := by rw [← hh, ← hs1]; rfl
    rw [hc]
    subst hfin
    exact ⟨_, (hw .idle (by simp)).1, (hw .idle (by simp)).2, fun _ => rfl, fun h => by simp at h⟩
  | waiting =>
    generalize hw' : (s1.applyHold c h).enter c .waiting = w
    have hw2 := hw .waiting (by simp)
    rw [hw'] at hw2
    have hc : s.endingComplete c .waiting =
        if (w.chan c).queue.isEmpty then w else w.evaluate c false := by rw [← hw', ← hh, ← hs1]; rfl
    rw [hc]
    refine ⟨w, hw2.1, by subst hfin; exact hw2.2, fun hq => ?_, fun _ hop rest hq => ?_⟩
    · simp at hq
      simp [hq]
    · have hof : w.offerHead c = w.setChan c { w.chan c with selfHead := false } := by
        simp [State.offerHead, hq]
      rw [if_neg (by simp [hq]), ← hof]
      refine evaluate_evaluated false ?_
      rw [hof, State.setChan_chan_same]
      exact .inl ⟨rfl, hq⟩

/-- The entry into ENDING does what `EndingEntered` says (R63, R64). -/
theorem enterEnding_entered (s : State) (c : Chan) (dest : EndDest) :
    EndingEntered s (s.enterEnding c dest) c dest := by
  have hm := enter_applyHold_moved (s := s) (c := c)
    { s.chan c with stopAtEnd := false, selfHead := false } (.ending dest)
    { (s.chan c).gate.hold with ending := true, blank := false } rfl rfl rfl
  unfold State.enterEnding
  simp only [enter_chan, State.setChan_chan_same]
  generalize State.applyHold _ _ _ = w at hm ⊢
  refine ⟨w, hm, fun h => ?_, fun h => ?_⟩
  · simp [State.gateClosed, h]
  · simp only [State.gateClosed, h, beq_self_eq_true, if_true]
    obtain ⟨g, hc, -⟩ := moved_chan hm
    exact endingComplete_done h (by rw [hc])

/-- The underrun procedure does what `Underran` says (R61). -/
theorem underrun_underran (s : State) (c : Chan) : Underran s (s.underrun c) c := by
  refine ⟨fun h => ?_, fun h => ?_, fun h => ?_⟩
  · simp only [State.underrun, h]
    unfold State.enter
    simp only [State.report_chan, State.setChan_chan_same]
    split <;> simp [State.report]
  · simp only [State.underrun, h]
    exact enterEnding_entered _ c .waiting
  · simp only [State.underrun, h]
    exact enterEnding_entered _ c .idle

/-- A channel left with a current hop by a removal does what `HeadRemoved` says (R35, R54, R82). -/
theorem afterRemoval_removed (s : State) (c : Chan) (kept : Bool) :
    HeadRemoved s (s.afterRemoval c kept) c kept := by
  refine ⟨fun h1 h2 => ?_, fun hop rest ho => ?_⟩
  · simp only [State.afterRemoval, h1, h2, List.isEmpty_nil, Bool.not_false, Bool.and_self, if_true]
    exact underrun_underran s c
  · have hn : ((s.chan c).queue.isEmpty && !(s.chan c).cfg.cycle) = false := by
      cases hq : (s.chan c).queue with
      | cons _ _ => rfl
      | nil =>
        rcases ho with ⟨-, h2⟩ | ⟨h1, -⟩
        · simp [hq] at h2
        · simp at h1
          simp [h1]
    simp only [State.afterRemoval, hn, Bool.false_eq_true, if_false]
    exact evaluate_evaluated kept ho

/-- BLANK leaves the hold set of a channel that has left SWITCHING (R69, R82, R83). -/
theorem dropBlank_dropped (s : State) (c : Chan) : BlankDropped s (s.dropBlank c) c := by
  refine ⟨fun h => ?_, fun h1 h2 => ?_⟩
  · have : ((s.chan c).gate.hold.blank && (s.chan c).st != .switching) = false := by
      rcases h with h | h <;> simp [h]
    simp only [State.dropBlank, this, Bool.false_eq_true, if_false]
  · have : ((s.chan c).gate.hold.blank && (s.chan c).st != .switching) = true := by simp [h1, h2]
    simp only [State.dropBlank, this, if_true]
    have h := enter_applyHold_moved (s := s) (c := c) (s.chan c) (s.chan c).st
      { (s.chan c).gate.hold with blank := false } rfl rfl rfl
    rwa [State.setChan_self, show s.enter c (s.chan c).st = s by simp [State.enter]] at h

end Sys2Proof.Machine
end

