-- ==== Sys2Proof/Laws/Memory.lean ====
section
/-! SUPPORT. The store's memory: what a write and an erase do to every byte, and that they keep the
canonical form. -/

namespace Sys2Proof.Machine

/-- Every address of a memory lies above a bound. -/
def Memory.above (a : Nat) (m : List Host.Cell) : Prop := ∀ p ∈ m, a < p.1

theorem memRead_above {a : Nat} {m : List Host.Cell} (h : Memory.above a m) :
    memRead m a = Config.erased := by
  induction m with
  | nil => rfl
  | cons p rest ih =>
    have h1 : a < p.1 := h p List.mem_cons_self
    simp only [memRead, Nat.ne_of_gt h1, if_false]
    exact ih fun q hq => h q (List.mem_cons_of_mem _ hq)

theorem memory_wf_cons {k : Nat} {v : Byte} {rest : List Host.Cell} :
    Memory.wf ((k, v) :: rest) = true ↔
      v ≠ Config.erased ∧ Memory.above k rest ∧ Memory.wf rest = true := by
  induction rest generalizing k v with
  | nil => simp [Memory.wf, Memory.above]
  | cons p rest ih =>
    obtain ⟨k', v'⟩ := p
    simp only [Memory.wf, Bool.and_eq_true, bne_iff_ne, decide_eq_true_eq, Memory.above, List.mem_cons,
      forall_eq_or_imp]
    constructor
    · rintro ⟨⟨h1, h2⟩, h3⟩
      exact ⟨h1, ⟨h2, fun q hq => Nat.lt_trans h2 ((ih.mp h3).2.1 q hq)⟩, h3⟩
    · rintro ⟨h1, ⟨h2, _⟩, h3⟩
      exact ⟨⟨h1, h2⟩, h3⟩

theorem memWrite_above {a k : Nat} {b : Byte} {m : List Host.Cell} (hk : k < a)
    (h : Memory.above k m) : Memory.above k (memWrite m a b) := by
  induction m with
  | nil => unfold memWrite; split <;> simp [Memory.above, hk]
  | cons p rest ih =>
    obtain ⟨k', v'⟩ := p
    have h1 : k < k' := h (k', v') List.mem_cons_self
    have h2 : Memory.above k rest := fun q hq => h q (List.mem_cons_of_mem _ hq)
    have h3 := ih h2
    unfold memWrite
    intro q hq
    split at hq
    · split at hq
      · exact h q hq
      · rcases List.mem_cons.mp hq with rfl | hq
        · exact hk
        · exact h q hq
    · split at hq
      · split at hq
        · exact h2 q hq
        · rcases List.mem_cons.mp hq with rfl | hq
          · exact hk
          · exact h2 q hq
      · rcases List.mem_cons.mp hq with rfl | hq
        · exact h1
        · exact h3 q hq

/-- A write keeps the canonical form. -/
theorem memWrite_wf {m : List Host.Cell} (a : Nat) (b : Byte) (h : Memory.wf m = true) :
    Memory.wf (memWrite m a b) = true := by
  induction m with
  | nil =>
    unfold memWrite
    split
    · rfl
    · rename_i hb; simp [Memory.wf, hb]
  | cons p rest ih =>
    obtain ⟨k, v⟩ := p
    obtain ⟨h1, h2, h3⟩ := memory_wf_cons.mp h
    unfold memWrite
    split
    · rename_i hak
      split
      · exact h
      · rename_i hb
        refine memory_wf_cons.mpr ⟨hb, ?_, h⟩
        intro q hq
        rcases List.mem_cons.mp hq with rfl | hq
        · exact hak
        · exact Nat.lt_trans hak (h2 q hq)
    · rename_i hak
      split
      · rename_i hk
        subst hk
        split
        · exact h3
        · rename_i hb; exact memory_wf_cons.mpr ⟨hb, h2, h3⟩
      · rename_i hk
        exact memory_wf_cons.mpr ⟨h1, memWrite_above (by omega) h2, ih h3⟩

/-- A run of writes keeps the canonical form. -/
theorem memWrites_wf {m : List Host.Cell} (a : Nat) (bs : List Byte) (h : Memory.wf m = true) :
    Memory.wf (memWrites m a bs) = true := by
  induction bs generalizing m a with
  | nil => exact h
  | cons b bs ih => exact ih (a + 1) (memWrite_wf a b h)

theorem memory_wf_filter {m : List Host.Cell} (f : Host.Cell → Bool) (h : Memory.wf m = true) :
    Memory.wf (m.filter f) = true := by
  induction m with
  | nil => rfl
  | cons p rest ih =>
    obtain ⟨k, v⟩ := p
    obtain ⟨h1, h2, h3⟩ := memory_wf_cons.mp h
    rw [List.filter_cons]
    split
    · exact memory_wf_cons.mpr ⟨h1, fun q hq => h2 q (List.mem_filter.mp hq).1, ih h3⟩
    · exact ih h3

/-- An erase keeps the canonical form. -/
theorem memErase_wf {m : List Host.Cell} (a n : Nat) (h : Memory.wf m = true) :
    Memory.wf (memErase m a n) = true := memory_wf_filter _ h

/-- The memory after reset has the canonical form. -/
theorem reset_memory_wf : Memory.wf State.reset.store.mem = true := rfl

/-- Everything a write does: the byte written reads as written, every other as before. -/
theorem memRead_memWrite {m : List Host.Cell} (h : Memory.wf m = true) (a c : Nat) (b : Byte) :
    memRead (memWrite m a b) c = if c = a then b else memRead m c := by
  induction m with
  | nil =>
    unfold memWrite
    by_cases hb : b = Config.erased <;> by_cases hc : c = a
    · subst hc; simp [memRead, hb]
    · simp [memRead, hb, hc]
    · subst hc; simp [memRead, hb]
    · simp [memRead, hb, hc, Ne.symm hc]
  | cons p rest ih =>
    obtain ⟨k, v⟩ := p
    obtain ⟨h1, h2, h3⟩ := memory_wf_cons.mp h
    have above : ∀ x, x < k → memRead ((k, v) :: rest) x = Config.erased := fun x hx =>
      memRead_above fun q hq => by
        rcases List.mem_cons.mp hq with rfl | hq
        · exact hx
        · exact Nat.lt_trans hx (h2 q hq)
    unfold memWrite
    split
    · rename_i hak
      split
      · rename_i hb
        by_cases hc : c = a
        · subst hc; simp [above c hak, hb]
        · simp [hc]
      · by_cases hc : c = a
        · subst hc; simp [memRead]
        · simp [memRead, hc, Ne.symm hc]
    · rename_i hak
      split
      · rename_i hk
        subst hk
        split
        · rename_i hb
          by_cases hc : c = a
          · subst hc; simp [memRead_above h2, hb]
          · simp [memRead, hc, Ne.symm hc]
        · by_cases hc : c = a
          · subst hc; simp [memRead]
          · simp [memRead, hc, Ne.symm hc]
      · rename_i hk
        simp only [memRead, ih h3]
        by_cases hc : c = a
        · subst hc; simp [Ne.symm hk]
        · simp [hc]

/-- Everything a run of writes does. -/
theorem memRead_memWrites {m : List Host.Cell} (h : Memory.wf m = true) (a c : Nat) (bs : List Byte) :
    memRead (memWrites m a bs) c =
      if a ≤ c ∧ c < a + bs.length then bs.getD (c - a) Config.erased else memRead m c := by
  induction bs generalizing m a with
  | nil =>
    have hn : ¬(a ≤ c ∧ c < a + ([] : List Byte).length) := by simp
    rw [if_neg hn, memWrites]
  | cons b bs ih =>
    rw [memWrites, ih (memWrite_wf a b h), memRead_memWrite h]
    by_cases h1 : c = a
    · subst h1
      have hn : ¬(c + 1 ≤ c ∧ c < c + 1 + bs.length) := by omega
      have hp : c ≤ c ∧ c < c + (b :: bs).length := by simp
      rw [if_neg hn, if_pos rfl, if_pos hp]
      simp
    · by_cases h2 : a + 1 ≤ c ∧ c < a + 1 + bs.length
      · have hp : a ≤ c ∧ c < a + (b :: bs).length := by simp; omega
        have h3 : c - a = c - (a + 1) + 1 := by omega
        rw [if_pos h2, if_pos hp, h3, List.getD_cons_succ]
      · have hn : ¬(a ≤ c ∧ c < a + (b :: bs).length) := by simp; omega
        rw [if_neg h2, if_neg hn, if_neg h1]

/-- Everything an erase does. -/
theorem memRead_memErase (m : List Host.Cell) (a n c : Nat) :
    memRead (memErase m a n) c = if a ≤ c ∧ c < a + n then Config.erased else memRead m c := by
  induction m with
  | nil => simp [memErase, memRead]
  | cons p rest ih =>
    obtain ⟨k, v⟩ := p
    simp only [memErase, List.filter_cons] at ih ⊢
    by_cases hk : k = c
    · subst hk
      by_cases hin : a ≤ k ∧ k < a + n
      · have hf : ((decide (k < a)) || decide (a + n ≤ k)) = false := by simp; omega
        rw [if_pos hin] at ih ⊢
        simp only [hf, Bool.false_eq_true, if_false]
        exact ih
      · have hf : ((decide (k < a)) || decide (a + n ≤ k)) = true := by simp; omega
        rw [if_neg hin]
        simp only [hf, if_true, memRead]
    · have hr : memRead ((k, v) :: rest) c = memRead rest c := by simp [memRead, hk]
      split
      · simp only [memRead, hk, if_false]; exact ih
      · rw [hr]; exact ih

end Sys2Proof.Machine
end

