-- ==== Sys2Proof/Laws/Period.lean ====
section
/-! SUPPORT. What no event of the sample period changes: the store's bytes, directory and operation, the load in
flight, the receiver, the cache and the commands that wait. -/

namespace Sys2Proof.Machine

/-- What the events of a sample period leave as it is. -/
structure Held where
  mem : List Host.Cell
  dirs : Vector Dir 8
  op : Option StoreOp
  ctx : Option LoadCtx
  staging : List Byte
  rx : RxState
  buf : List Byte
  deaf : Bool
  cache : List CacheEntry
  rate : LinkRate
  fullResetDue : Bool
  pending : List Instr

/-- What a state holds of these. -/
def State.held (s : State) : Held :=
  { mem := s.store.mem, dirs := s.store.dirs, op := s.store.op, ctx := s.loader.ctx,
    staging := s.loader.staging, rx := s.link.rx, buf := s.link.buf, deaf := s.link.deaf,
    cache := s.link.cache, rate := s.link.rate, fullResetDue := s.link.fullResetDue, pending := s.pending }

@[simp] theorem held_setChan (s : State) (c : Chan) (x : Channel) : (s.setChan c x).held = s.held := by
  cases c <;> rfl
@[simp] theorem held_setGate (s : State) (c : Chan) (g : Gate) : (s.setGate c g).held = s.held := by
  cases c <;> rfl
@[simp] theorem held_unpin (s : State) (i : Fin 48) : (s.unpin i).held = s.held := by
  rfl
@[simp] theorem held_report (s : State) (r : ReportBody) : (s.report r).held = s.held := by
  rfl
@[simp] theorem held_setArm (s : State) (a : ArmState) : (s.setArm a).held = s.held := by
  rfl
@[simp] theorem held_drivePorts (s : State) : (s.drivePorts).held = s.held := by
  unfold State.drivePorts; split <;> rfl
@[simp] theorem held_arbitrate (s : State) : (s.arbitrate).held = s.held := by
  unfold State.arbitrate
  repeat' split
  all_goals try rfl
  unfold State.sendHead
  split <;> rfl
@[simp] theorem held_finish (s : State) : (s.finish).held = s.held := by
  simp [State.finish]
@[simp] theorem held_unpinOpt (s : State) (i : Option (Fin 48)) : (s.unpinOpt i).held = s.held := by
  unfold State.unpinOpt; split <;> simp
@[simp] theorem held_moveGate (s : State) (c : Chan) (g : Gate) : (s.moveGate c g).held = s.held := by
  unfold State.moveGate; split <;> simp
@[simp] theorem held_applyHold (s : State) (c : Chan) (h : HoldSet) : (s.applyHold c h).held = s.held := by
  simp [State.applyHold]
@[simp] theorem held_enter (s : State) (c : Chan) (st : ChanState) : (s.enter c st).held = s.held := by
  unfold State.enter; split <;> simp
@[simp] theorem held_withdraw (s : State) (c : Chan) : (s.withdraw c).held = s.held := by
  simp [State.withdraw]
@[simp] theorem held_realign (s : State) (c : Chan) : (s.realign c).held = s.held := by
  unfold State.realign; split <;> simp
@[simp] theorem held_epochEvent (s : State) (cause : EpochCause) : (s.epochEvent cause).held = s.held := by
  simp [State.epochEvent]; rfl
@[simp] theorem held_syncRise (s : State) : (s.syncRise).held = s.held := by
  unfold State.syncRise; split <;> simp <;> rfl
@[simp] theorem held_settleEpoch (s : State) : (s.settleEpoch).held = s.held := by
  unfold State.settleEpoch; split <;> simp
@[simp] theorem held_reportWrap (s : State) : (s.reportWrap).held = s.held := by
  simp [State.reportWrap]; rfl
@[simp] theorem held_takeWrap (s : State) : (s.takeWrap).held = s.held := by
  rfl
@[simp] theorem held_switchTo (s : State) (c : Chan) (hop : HopEntry) : (s.switchTo c hop).held = s.held := by
  unfold State.switchTo; dsimp only; split <;> simp
@[simp] theorem held_hopStart (s : State) (c : Chan) : (s.hopStart c).held = s.held := by
  unfold State.hopStart; split <;> simp
@[simp] theorem held_pairStart (s : State) : (s.pairStart).held = s.held := by
  simp [State.pairStart]
@[simp] theorem held_becomeReady (s : State) (c : Chan) : (s.becomeReady c).held = s.held := by
  unfold State.becomeReady; dsimp only; repeat' split
  all_goals simp
@[simp] theorem held_switchClosed (s : State) (c : Chan) : (s.switchClosed c).held = s.held := by
  unfold State.switchClosed; repeat' split
  all_goals simp
@[simp] theorem held_enterSwitching (s : State) (c : Chan) : (s.enterSwitching c).held = s.held := by
  unfold State.enterSwitching; dsimp only; split <;> simp
@[simp] theorem held_headMet (s : State) (c : Chan) (hop : HopEntry) : (s.headMet c hop).held = s.held := by
  unfold State.headMet; split <;> simp
@[simp] theorem held_waitOnHead (s : State) (c : Chan) : (s.waitOnHead c).held = s.held := by
  unfold State.waitOnHead; split <;> simp
@[simp] theorem held_offerHead (s : State) (c : Chan) : (s.offerHead c).held = s.held := by
  simp [State.offerHead]
@[simp] theorem held_evaluateHop (s : State) (c : Chan) (hop : HopEntry) (k : Bool) : (s.evaluateHop c hop k).held = s.held := by
  unfold State.evaluateHop; dsimp only; repeat' split
  all_goals simp
@[simp] theorem held_evaluate (s : State) (c : Chan) (k : Bool) : (s.evaluate c k).held = s.held := by
  unfold State.evaluate; dsimp only; split <;> simp
@[simp] theorem held_endingComplete (s : State) (c : Chan) (d : EndDest) : (s.endingComplete c d).held = s.held := by
  unfold State.endingComplete; dsimp only; repeat' split
  all_goals simp
@[simp] theorem held_enterEnding (s : State) (c : Chan) (d : EndDest) : (s.enterEnding c d).held = s.held := by
  unfold State.enterEnding; dsimp only; split <;> simp
@[simp] theorem held_underrun (s : State) (c : Chan) : (s.underrun c).held = s.held := by
  unfold State.underrun; dsimp only; split <;> simp
@[simp] theorem held_dropBlank (s : State) (c : Chan) : (s.dropBlank c).held = s.held := by
  unfold State.dropBlank; split <;> simp
@[simp] theorem held_afterRemoval (s : State) (c : Chan) (k : Bool) : (s.afterRemoval c k).held = s.held := by
  unfold State.afterRemoval; split <;> simp
@[simp] theorem held_gateReportsClosed (s : State) (c : Chan) : (s.gateReportsClosed c).held = s.held := by
  unfold State.gateReportsClosed; split <;> simp
@[simp] theorem held_expire (s : State) (c : Chan) : (s.expire c).held = s.held := by
  unfold State.expire; split <;> simp
@[simp] theorem held_skipHead (s : State) (c : Chan) : (s.skipHead c).held = s.held := by
  unfold State.skipHead; split <;> simp
@[simp] theorem held_pairExpire (s : State) (c : Chan) : (s.pairExpire c).held = s.held := by
  unfold State.pairExpire; dsimp only; simp only [held_dropBlank]; repeat' split
  all_goals simp
@[simp] theorem held_gateArrive (s : State) (c : Chan) : (s.gateArrive c).held = s.held := by
  unfold State.gateArrive; split <;> simp
@[simp] theorem held_meetEdge (s : State) (c : Chan) : (s.meetEdge c).held = s.held := by
  unfold State.meetEdge; repeat' split
  all_goals simp
@[simp] theorem held_takeEdge (s : State) (c : Chan) : (s.takeEdge c).held = s.held := by
  simp [State.takeEdge]
@[simp] theorem held_timeArrive (s : State) (c : Chan) : (s.timeArrive c).held = s.held := by
  unfold State.timeArrive; split <;> simp
@[simp] theorem held_changeHold (s : State) (c : Chan) (h : HoldSet) : (s.changeHold c h).held = s.held := by
  unfold State.changeHold; dsimp only; repeat' split
  all_goals simp
@[simp] theorem held_followLine (s : State) (c : Chan) : (s.followLine c).held = s.held := by
  simp [State.followLine]
@[simp] theorem held_gateLineChange (s : State) : (s.gateLineChange).held = s.held := by
  simp [State.gateLineChange]; rfl
@[simp] theorem held_doSyncEdge (s : State) : (s.doSyncEdge).held = s.held := by
  unfold State.doSyncEdge State.takeIf; split <;> simp
@[simp] theorem held_doWrap (s : State) : (s.doWrap).held = s.held := by
  unfold State.doWrap State.takeIf; split <;> simp
@[simp] theorem held_doGateLine (s : State) : (s.doGateLine).held = s.held := by
  unfold State.doGateLine State.takeIf; split <;> simp
@[simp] theorem held_doArrival (s : State) (c : Chan) : (s.doArrival c).held = s.held := by
  unfold State.doArrival State.takeIf; split <;> simp
@[simp] theorem held_doExpiry (s : State) (c : Chan) : (s.doExpiry c).held = s.held := by
  unfold State.doExpiry State.takeIf; split <;> simp
@[simp] theorem held_doEdge (s : State) (c : Chan) : (s.doEdge c).held = s.held := by
  unfold State.doEdge State.takeIf; split <;> simp
@[simp] theorem held_doTime (s : State) (c : Chan) : (s.doTime c).held = s.held := by
  unfold State.doTime State.takeIf; split <;> simp
@[simp] theorem held_doPairTimer (s : State) (c : Chan) : (s.doPairTimer c).held = s.held := by
  unfold State.doPairTimer State.takeIf; split <;> simp
@[simp] theorem held_doChannel (s : State) (c : Chan) : (s.doChannel c).held = s.held := by
  simp [State.doChannel]
/-- The events of a sample period leave these as they are. -/
@[simp] theorem held_closePeriod (s : State) : s.closePeriod.held = s.held := by
  simp [State.closePeriod]
/-- The end of a sample period leaves these as they are. -/
@[simp] theorem held_endPeriod (s : State) : s.endPeriod.held = s.held := by
  unfold State.endPeriod State.takeIf; split <;> simp
@[simp] theorem held_noteClock (s : State) (b : Bool) : (s.noteClock b).held = s.held := by
  unfold State.noteClock
  split
  · exact held_closePeriod s
  · rfl
/-- A request is executed on the store, the load and the cache that stood before it, the receiver being back in
HUNT (R111). -/
theorem held_frameEnds (s : State) (p : Pins) : (s.frameEnds p).held = s.hunt.held := held_noteClock _ _

end Sys2Proof.Machine
end

