-- ==== Sys2Proof/Tests/Slice0.lean ====
section
/-! SUPPORT. Tests against the spec's worked examples, ill-formed commands that WellFormed refuses, and for
each statement with hypotheses a state and operands that meet them. -/

namespace Sys2Proof.Tests

/- One theorem after another: each kernel evaluation waits for the theorems before it, and they would all wait at
once. -/
set_option Elab.async false

open Sys2Proof.Machine

/-! States and operands. -/

/-- The part after the scan of a store never used, its reports sent. -/
def base : State :=
  { State.reset with
    reports := { State.reset.reports with isOpen := true },
    store := { State.reset.store with engine := .idle, op := none } }

/-- A frame of a sequence, with WP low and SCLK running. -/
def rq (seq : Byte) : Req := { seq := seq, raw := none, pins := { wp := false, sclkStopped := false } }

/-- A frame with a raw payload. -/
def raw (p : List Byte) : Req := { rq 1#8 with raw := some p }

/-- The line is busy with a report. -/
def busy (s : State) : State := { s with link := { s.link with tx := some (.report []) } }

/-- The tone of slot 3 in Table 3-3. -/
def tone3 : Tone := { word := 0x01000000#32, offset := 0x2000#16, label := none }

/-- Slot 3 LOADED, with pins. -/
def loaded (pins : Nat) (s : State) : State := s.setSlot 3 { s.slot 3 with tone := some tone3, pins := pins }

/-- An entry that names slot 3. -/
def entry (trigger : Trigger) (blank : Bool) : HopEntry :=
  { slot := 3, dwell := 100#24, amplitude := 32767#16, mode := .coherent, trigger := trigger,
    blank := blank, report := true, tag := some 7#16 }

/-- A gate in a state, with the gain of its end, under these reasons. -/
def gate (st : GateState) (gain : Nat) (hold : HoldSet) : Gate :=
  { st := st, gain := gain, hold := hold, periodGain := gain }

def noHold : HoldSet := { host := false, line := false, blank := false, ending := false, noHop := false }
def hostHold : HoldSet := { noHold with host := true }
def endHold : HoldSet := { noHold with ending := true }
def blankHold : HoldSet := { noHold with blank := true }

/-- A channel in a state, with a gate, a queue and, if it has one, a current hop that is an AFTER hop. -/
def chanIn (st : ChanState) (g : Gate) (queue : List HopEntry) (hop : Bool) : Channel :=
  { Channel.reset with
    st := st, gate := g, queue := queue, cur := if hop then some (entry .after false) else none }

/-- A channel with a current hop, under any gate, ramp length, policy and cycle mode, that offers its own hop or the
head of its queue. -/
def offering (st : ChanState) (g : Gate) (q : List HopEntry) (e : HopEntry) (own : Bool) (cfg : ChanConfig) :
    Channel :=
  { chanIn st g q true with cur := some e, selfHead := own, cfg := cfg }

/-- Channel A in a state. -/
def withA (ch : Channel) : State := { base with chA := ch }

/-- Channel A playing with its gate OPEN, its dwell at an end. -/
def playing (queue : List HopEntry) : Channel := chanIn .dwell (gate .opened 1024 noHold) queue true

/-- Area 7 with this directory record. -/
def withDir (d : Dir) (s : State) : State := { s with store := { s.store with dirs := s.store.dirs.set 7 d } }

def record : CommitRec :=
  { imageLength := 48#16, imageCrc := 0#16, slotUse := 8#48, slotCount := 1#8, hopCount := 1#8,
    autostart := true, chan := .A, startAfter := false }

/-- A VALID area with autostart. -/
def validDir : Dir := { Dir.unused with st := .valid, commit := some record }

/-- The engine runs an operation. -/
def running (e : EngineState) (op : StoreOp) : State :=
  { base with store := { base.store with engine := e, op := some op } }

/-- With an idle link and SCLK running every request that fits its kind is taken. -/
theorem takes_of_idle {s : State} {r : Req} {k : Kind} {p : List Byte} (h : s.link = Link.reset .r115200)
    (hr : r.raw = none) (hl : lengthFits k p = true) (hp : r.pins.sclkStopped = false := by rfl) :
    s.takes r k p := by
  refine ⟨by rw [h]; rfl, hr, hl, ?_, ?_⟩ <;> rw [frameEnds_running hp]
  · simp [State.hunt, h, Link.lookup, Link.reset]
  · rw [State.hunt, h]; rfl

/-- What a witness says of a state holds of the state in which its request is executed: that one differs from it
in the receiver alone. -/
theorem witness_frameEnds (s : State) (seq : Byte) : s.frameEnds (rq seq).pins = s.hunt := rfl

/-- The state a command answers. -/
def nextOf : Result → State
  | .next t => t
  | _ => State.reset

/-- What the relations of Safety.lean ask of a state is met by every gate, ramp length, trigger and offer; each
gate state has lawful gates, moving ones at both of their ends among them. -/
theorem witness_moves :
    (∀ st g q e own cfg, let x := offering st g q e own cfg
      x.st = st ∧ x.gate = g ∧ x.queue = q ∧ x.cur = some e ∧ x.cfg = cfg ∧ x.selfHead = own ∧
      x.ready = false ∧ x.timer = none) ∧
    (∀ st g q e cfg, (offering st g q e true cfg).offers e q) ∧
    (∀ st g hop rest e cfg, (offering st g (hop :: rest) e false cfg).offers hop rest) ∧
    (gate .opened 1024 noHold).lawful = true ∧ (gate .closed 0 blankHold).lawful = true ∧
    (gate .opening 0 noHold).lawful = true ∧ (gate .opening 1024 noHold).lawful = true ∧
    (gate .closing 0 endHold).lawful = true ∧ (gate .closing 1024 hostHold).lawful = true :=
  ⟨fun _ _ _ _ _ _ => ⟨rfl, rfl, rfl, rfl, rfl, rfl, rfl, rfl⟩, fun _ _ _ _ _ => .inr ⟨rfl, rfl, rfl⟩,
    fun _ _ _ _ _ _ => .inl ⟨rfl, rfl⟩, rfl, rfl, rfl, rfl, rfl, rfl⟩

/-! The spec's worked examples. -/

/-- CRC-16 of the nine characters 123456789 is 0x29B1 (00, Check value). -/
theorem test_crc : crc16 [0x31#8, 0x32#8, 0x33#8, 0x34#8, 0x35#8, 0x36#8, 0x37#8, 0x38#8, 0x39#8] =
    0x29B1#16 := by decide +kernel

/-- Table 1-1: slot phases at the counts 0 and 4. -/
theorem test_slot_phase :
    slotPhase { word := 0x10000000#32, offset := 0x4000#16, label := none } 0#48 = 0x40000000#32 ∧
    slotPhase { word := 0x10000000#32, offset := 0x4000#16, label := none } 4#48 = 0x80000000#32 := by
  decide

/-- Table 3-3: the accumulator at a switch in each mode, the old word already added. -/
theorem test_switch_accumulator :
    switchAcc (0x12345678#32 + 0x00800000#32) tone3 100#48 .continuous = 0x12B45678#32 ∧
    switchAcc 0x12B45678#32 tone3 100#48 .restart = 0x20000000#32 ∧
    switchAcc 0x12B45678#32 tone3 100#48 .coherent = 0x84000000#32 := by decide

/-- Table 5-3: with L = 5 a closing gate steps by 204, and from 208 lands on 0; with L = 100 the last step
is 34. -/
theorem test_ramp_steps : rampStep 5 1024 = 204 ∧ rampStep 5 208 = 208 ∧ rampStep 100 34 = 34 := by
  decide

/-- Table 5-4, period 103: from 616 an opening gate with L = 5 moves to 820. -/
theorem test_ramp_reversed : (Gate.step 5 (gate .opening 616 noHold)).gain = 820 := by decide

/-- Table 5-8: sine table values. -/
theorem test_sine_table : sineTable 0 = 0 ∧ sineTable 2048 = 23170 ∧ sineTable 4096 = 32767 ∧
    sineTable 10240 = -23170 ∧ sineTable 12288 = -32767 := by decide

/-- Table 5-8: worked samples, truncated toward zero. -/
theorem test_samples : scaleSample 32767 32767 512 = 16383 ∧ scaleSample 23170 20000 768 = 10606 ∧
    scaleSample (-23170) 20000 768 = -10606 ∧ scaleSample (-32767) 32767 256 = -8191 := by decide

/-- The note under Table 2-7: 58 entries with a hop current in cycle mode leave room for 5. -/
theorem test_cycle_room :
    Channel.room { playing (List.replicate 58 (entry .after false)) with
      cfg := { ChanConfig.default with cycle := true } } = 5 := by decide

/-- Table 6-1: both straps high give 2,000,000. -/
theorem test_straps : rateBits (strapRate { rate1 := true, rate0 := true }) = 2000000#32 := by decide

/-- A wrap: the count 2^48 − 1 advances to 0 and is marked (R15). -/
theorem test_wrap :
    (Epoch.reset.advance false).wrapDue = false ∧
    ({ Epoch.reset with count := 0xFFFFFFFFFFFF#48 }.advance false).count = 0#48 ∧
    ({ Epoch.reset with count := 0xFFFFFFFFFFFF#48 }.advance false).wrapDue = true := by decide

/-- An image whose first bytes are not GW fails with reason 1 (R161). -/
theorem test_validate_magic : validateImage (fun _ => 0xFF#8) = .error (1, 0) := rfl

/-- The table gives its rows no bits, so no word spells a command. -/
theorem test_no_words : decodeTableWord 8 0 = none ∧ State.reset.withFetchWord 8 0 = State.reset := ⟨rfl, rfl⟩

/-! WellFormed refuses. -/

/-- A PING payload longer than a frame carries. -/
theorem test_wf_ping : (Instr.ping (rq 1#8) (List.replicate 241 0#8)).wf = false := by decide +kernel
/-- A label of 9 characters. -/
theorem test_wf_label : (Instr.slotSet (rq 1#8) 0#8 1#32 0#16 (List.replicate 9 0x41#8)).wf = false := by
  decide
/-- A chunk write of 63 bytes. -/
theorem test_wf_chunk : (Instr.storeWrite (rq 1#8) 0#8 0#8 (List.replicate 63 0#8)).wf = false := by decide
/-- A raw payload that spells a request of its kind, in a code row and in another, and one that does not. -/
theorem test_wf_raw : (Instr.gateHold (raw [0#8, 1#8]) 0#8).wf = false ∧
    (Instr.slotClear (raw [7#8]) 0#8).wf = false ∧ (Instr.gateHold (raw [0#8, 2#8]) 0#8).wf = true := by
  decide
/-- An unknown kind that is a request's. -/
theorem test_wf_kind : (Instr.unknownKind 1#8 (rq 1#8).pins 0x01#8 []).wf = false := by decide
/-- A length that is no fault. -/
theorem test_wf_length : (Instr.lengthFault 240#8).wf = false := by decide
/-- A check value that matches. -/
theorem test_wf_check : (Instr.checkFault 1#8 1#8 [] (frameCheck 1#8 1#8 [])).wf = false := by decide +kernel
/-- A progress past the longest operation. -/
theorem test_wf_progress : (Instr.coldReset { rate1 := false, rate0 := false }
    { progress := 65, periods := 0 }).wf = false := by decide
/-- An area and an offset that do not exist. -/
theorem test_wf_retention : (Instr.retentionLoss 8 []).wf = false ∧
    (Instr.retentionLoss 0 [(4096, 0#8)]).wf = false := by decide

/-! Witnesses: for each statement with hypotheses, states and operands that meet them, clause by clause. -/

theorem witness_StepRunsFrontCommand : base.pending = [] := rfl

/-- For MemoryFormKept, LawfulKept, BoundsKept and LineNeverIdle. -/
theorem witness_invariants :
    Memory.wf [(0, 1#8), (32767, 0#8)] = true ∧ base.lawful = true ∧ base.link.lawful = true ∧
    base.reports.lawful = true ∧ base.store.wearLawful = true ∧ base.lineBusy = true ∧
    step { base with pending := [.syncEdge] } = .next base := by
  refine ⟨by decide, by decide +kernel, by decide, by decide, by decide +kernel, by decide, rfl⟩

theorem witness_EpochCountChangers : ∃ t : State,
    exec (.samplePeriod { sync := false, trigA := false, trigB := false, gate := false }) base = .next t ∧
    t.epoch.count ≠ base.epoch.count := ⟨_, rfl, by decide +kernel⟩

theorem witness_StoredByteChangers : ∃ t : State,
    exec (.retentionLoss 7 [(4095, 0#8)]) base = .next t ∧ ¬sameBytes base t :=
  ⟨_, rfl, fun h => absurd (h 32767) (by decide +kernel)⟩

theorem witness_FinishFrame : (busy base).link.tx.isSome = true := rfl

theorem witness_PingEchoes : base.takes (rq 255#8) .ping (List.replicate 240 0xD3#8) :=
  takes_of_idle rfl rfl (by decide +kernel)

/-- For IdentifyAnswers, StatusAnswers and EpochGetReads. -/
theorem witness_readings : base.takes (rq 0#8) .identify [] ∧ base.takes (rq 1#8) .status [] ∧
    base.takes (rq 2#8) .epochGet [] :=
  ⟨takes_of_idle rfl rfl rfl, takes_of_idle rfl rfl rfl, takes_of_idle rfl rfl rfl⟩

/-- A load of area 7 for channel A is in flight. -/
def loading (start : Bool) : State :=
  State.reserve (withDir validDir
    { withA (chanIn .loading (gate .closed 0 HoldSet.noHopOnly) [] false) with
      store := { base.store with engine := .reading },
      loader := { Loader.reset with ctx := some { area := 7, chan := .A, start := start, seq := 9#8 } } })
    record.slotUse

/-- A load for channel A in flight beside a channel B that plays. -/
def loadingBeside (start : Bool) : State := { loading start with chB := playing [] }

theorem witness_ResetChannelsActs : (loading false).takes (rq 1#8) .reset [1#8] ∧
    (loading false).loader.ctx = some { area := 7, chan := .A, start := false, seq := 9#8 } ∧
    (loading false).reports.isOpen = true ∧ (base.takes (rq 1#8) .reset [1#8] ∧ base.loader.staging = []) ∧
    (let s := loadingBeside false
     s.takes (rq 1#8) .reset [1#8] ∧ s.loader.ctx.map LoadCtx.chan = some .A ∧ s.chA.st ≠ .idle ∧
     s.chA.gate.st = .closed ∧ s.chB.st ≠ .idle ∧ s.chB.gate.st ≠ .closed) :=
  ⟨takes_of_idle rfl rfl rfl, rfl, rfl, ⟨takes_of_idle rfl rfl rfl, rfl⟩, takes_of_idle rfl rfl rfl, rfl,
    by decide, rfl, by decide, by decide⟩

/-- RESET CHANNELS cancels the load of a channel and stops the other one: a CHANNEL_STATE of each (R73), a
GATE_STATE of the gate that was not CLOSED (R104), and the load's LOAD_DONE (R126). -/
theorem test_reset_channels_reports :
    let t := nextOf (exec (.resetChannels (rq 1#8)) (busy (loadingBeside false)))
    t.reports.queue.map Report.body =
      [.channelState .A .idle, .channelState .B .idle, .gateState .B .closed HoldSet.noHopOnly] ∧
    t.reports.completion.map Report.body = some (.loadDone 9#8 .A 7 .cancelled 0xFF#8) := by
  decide +kernel

theorem witness_ResetFullAndDeafness :
    (base.takes (rq 1#8) .reset [2#8] ∧ base.store.engine = .idle) ∧
    ((loading true).takes (rq 1#8) .reset [2#8] ∧ (loading true).store.engine = .reading) ∧
    (State.reset.takes (rq 1#8) .reset [2#8] ∧ State.reset.store.engine = .scanning) ∧
    ({ base with link := { base.link with deaf := true } } : State).link.deaf = true ∧
    requestOf (.hopFlush (rq 1#8) 1#8) = some (rq 1#8, .hopFlush, [1#8]) :=
  ⟨⟨takes_of_idle rfl rfl rfl, rfl⟩, ⟨takes_of_idle rfl rfl rfl, rfl⟩,
    ⟨takes_of_idle rfl rfl rfl, rfl⟩, rfl, rfl⟩

theorem witness_SlotSetWrites :
    base.takes (rq 1#8) .slotSet (slotSetPayload 48#8 1#32 0#16 []) ∧
    base.takes (rq 1#8) .slotSet (slotSetPayload 47#8 0#32 0#16 []) ∧
    base.takes (rq 1#8) .slotSet (slotSetPayload 47#8 1#32 0#16 [0x1F#8, 0x7F#8]) ∧
    base.takes (rq 1#8) .slotSet (slotSetPayload 47#8 1#32 0#16 (List.replicate 8 0x7E#8)) ∧
    ((base.slot 47).pins = 0 ∧ (base.slot 47).reserved = false) ∧ 0 < ((loaded 1 base).slot 3).pins :=
  ⟨takes_of_idle rfl rfl (by decide +kernel), takes_of_idle rfl rfl (by decide +kernel),
    takes_of_idle rfl rfl (by decide +kernel), takes_of_idle rfl rfl (by decide +kernel),
    by decide +kernel, by decide +kernel⟩

/-- For SlotClearEmpties and SlotGetReads. -/
theorem witness_slots :
    (loaded 1 base).takes (rq 1#8) .slotClear [3#8] ∧ (loaded 1 base).takes (rq 1#8) .slotGet [3#8] ∧
    base.takes (rq 1#8) .slotClear [48#8] ∧ base.takes (rq 1#8) .slotGet [48#8] ∧
    0 < ((loaded 1 base).slot 3).pins ∧ ((loaded 1 base).slot 47).pins = 0 ∧
    ((loaded 1 base).slot 3).tone = some tone3 ∧ ((loaded 1 base).slot 47).tone = none ∧
    ((loaded 1 base).slot 47).reserved = false :=
  ⟨takes_of_idle rfl rfl rfl, takes_of_idle rfl rfl rfl, takes_of_idle rfl rfl rfl,
    takes_of_idle rfl rfl rfl, by decide +kernel, by decide +kernel, by decide +kernel,
    by decide +kernel, by decide +kernel⟩

theorem witness_EpochRequests : base.takes (rq 1#8) .epoch [0#8] ∧ base.takes (rq 1#8) .epoch [1#8] ∧
    base.takes (rq 1#8) .epoch [2#8] ∧ base.takes (rq 1#8) .epoch [3#8] ∧
    (∀ c, (base.chan c).coherentNow = none) ∧ base.reports.begun = 0 :=
  ⟨takes_of_idle rfl rfl rfl, takes_of_idle rfl rfl rfl, takes_of_idle rfl rfl rfl,
    takes_of_idle rfl rfl rfl, fun c => by cases c <;> rfl, rfl⟩

/-- A period in which channel A has made a COHERENT switch, with its HOP_BEGIN, and a wrap has been taken; the
HOP_BEGIN before it is of an earlier period. -/
def eventful : State :=
  busy { withA { playing [] with acc := 0x84000000#32, coherentNow := some tone3 } with
    epoch := { Epoch.reset with arm := .once, syncDue := true, wrapHeld := true },
    reports := { base.reports with
      queue := [⟨.hopBegin .A 3 none 4#48, 1⟩, ⟨.hopBegin .A 3 none 100#48, 1⟩], begun := 1 } }

/-- An epoch event in the period of a COHERENT switch: the accumulator and the HOP_BEGIN of that period are
those of the count 0 (R14, R48, R49), an earlier HOP_BEGIN stays, and the one report has cause SYNC, the wrap's
being made no more (R15, R18). -/
theorem test_epoch_event_of_the_period :
    let t := nextOf (exec .syncEdge eventful)
    t.epoch.count = 0#48 ∧ t.epoch.arm = .disarmed ∧ t.chA.acc = 0x20000000#32 ∧
    t.reports.queue = [⟨.hopBegin .A 3 none 4#48, 1⟩, ⟨.hopBegin .A 3 none 0#48, 1⟩,
      ⟨.epochEvent .sync, 1⟩] ∧ t.epoch.wrapHeld = false := by decide +kernel

/-- A wrap taken while the line is free makes no report before its period ends, then one with cause WRAP, or
none after an EPOCH NOW of the period (R15). -/
theorem test_wrap_report :
    let s := nextOf (exec .wrap { base with epoch := { Epoch.reset with wrapDue := true } })
    s.link.tx = none ∧ s.reports.queue = [] ∧
    s.endPeriod.link.tx = some (.report (reportFrame 0#8 ⟨.epochEvent .wrap, 1⟩)) ∧
    (nextOf (exec (.epochNow (rq 1#8)) s)).endPeriod.reports.queue = [⟨.epochEvent .request, 1⟩] := by
  decide +kernel

/-- An arming request that comes while SCLK is stopped does not meet the edge of the last period, which found
the block disarmed (R18). -/
theorem test_arm_after_the_stop :
    let s : State := { base with epoch := { Epoch.reset with count := 5#48, syncDue := true } }
    let t := nextOf (exec (.epochArmOnce { rq 1#8 with pins := { wp := false, sclkStopped := true } }) s)
    t.epoch = { Epoch.reset with count := 5#48, arm := .once } := by decide +kernel

theorem witness_HopEntryRoundTrip : (entry (.time 0#48) true).inRange := by
  unfold HopEntry.inRange; decide

/-- Entries in range on slot 3, LOADED: on an IDLE channel, on a WAITING one with a LINE and with an AFTER head,
and in OVERSTAY on any head, the channel waiting on its own current hop or not. -/
theorem witness_HopAppendTaken :
    (let s := loaded 0 base
     s.takes (rq 1#8) .hopAppend (0#8 :: b8 1 :: [entry .line true].flatMap encodeEntry) ∧
     s.chA.st = .idle ∧ (s.slot 3).tone.isSome = true ∧ s.chA.cfg.ramp < 100 ∧
     s.chA.queue.length + 8 ≤ 64) ∧
    (let s := loaded 0 (withA (chanIn .waiting (gate .closed 0 HoldSet.noHopOnly) [] false))
     s.takes (rq 1#8) .hopAppend (0#8 :: b8 1 :: [entry .line true].flatMap encodeEntry) ∧
     s.takes (rq 1#8) .hopAppend (0#8 :: b8 1 :: [entry .after true].flatMap encodeEntry) ∧
     s.chA.st = .waiting ∧ s.chA.queue = [] ∧ s.chA.cur = none ∧ s.chA.selfHead = false ∧
     s.chA.gate.st = .closed) ∧
    (∀ g own cycle, let s := loaded 1 (withA (offering .overstay g [] (entry .line false) own
        { ChanConfig.default with cycle := cycle }))
     s.takes (rq 1#8) .hopAppend (0#8 :: b8 1 :: [entry .after true].flatMap encodeEntry) ∧
     s.takes (rq 1#8) .hopAppend (0#8 :: b8 1 :: [entry .paired false].flatMap encodeEntry) ∧
     s.chA.st = .overstay ∧ s.chA.queue = [] ∧ s.chA.selfHead = own ∧ s.chA.gate = g) :=
  ⟨⟨takes_of_idle rfl rfl (by decide +kernel), rfl, by decide +kernel, by decide, by decide⟩,
    ⟨takes_of_idle rfl rfl (by decide +kernel), takes_of_idle rfl rfl (by decide +kernel),
      rfl, rfl, rfl, rfl, rfl⟩,
    fun _ _ _ => ⟨takes_of_idle rfl rfl (by decide +kernel), takes_of_idle rfl rfl (by decide +kernel),
      rfl, rfl, rfl, rfl⟩⟩

theorem witness_HopAppendRefused :
    (base.takes (rq 1#8) .hopAppend [2#8, 1#8] ∧ chanOf 2#8 = none) ∧
    ((loading false).takes (rq 1#8) .hopAppend [0#8, 1#8] ∧ (loading false).chA.st = .loading) ∧
    (base.takes (rq 1#8) .hopAppend [0#8, 0#8] ∧ base.takes (rq 1#8) .hopAppend [1#8, 9#8] ∧
      chanOf 1#8 = some .B ∧ base.chB.st ≠ .loading) ∧
    (let s := withA (chanIn .idle (gate .closed 0 HoldSet.noHopOnly)
        (List.replicate 64 (entry .line false)) false)
     s.takes (rq 1#8) .hopAppend (0#8 :: b8 1 :: [entry .line true].flatMap encodeEntry) ∧
     s.chA.room < 1) ∧
    base.takes (rq 1#8) .hopAppend (0#8 :: 2#8 :: encodeEntry (entry .line true) ++ [3#8]) ∧
    base.takes (rq 1#8) .hopAppend (0#8 :: 1#8 :: encodeEntry (entry .line true) ++ [3#8]) ∧
    (base.takes (rq 1#8) .hopAppend (0#8 :: 1#8 :: encodeEntry { entry .line true with dwell := 0#24 }) ∧
      (encodeEntry { entry .line true with dwell := 0#24 }).length = 9) ∧
    ((base.slot 3).tone = none ∧ 1 ≤ base.chA.room ∧
      (entry .line true).dwell.toNat ≤ ({ ChanConfig.default with ramp := 100 } : ChanConfig).ramp) :=
  ⟨⟨takes_of_idle rfl rfl rfl, rfl⟩, ⟨takes_of_idle rfl rfl rfl, rfl⟩,
    ⟨takes_of_idle rfl rfl rfl, takes_of_idle rfl rfl rfl, rfl, by decide⟩,
    ⟨takes_of_idle rfl rfl (by decide +kernel), by decide +kernel⟩,
    takes_of_idle rfl rfl (by decide +kernel), takes_of_idle rfl rfl (by decide +kernel),
    ⟨takes_of_idle rfl rfl (by decide +kernel), by decide +kernel⟩, by decide +kernel⟩

/-- Check 2 comes before check 3, and names the entry (R27): the second of two entries is cut short, the first
has a dwell of 0. -/
theorem test_append_malformed :
    (appendParsed .A 2#8 (encodeEntry { entry .line true with dwell := 0#24 } ++ [3#8]) base).2 =
      [0x10#8, 1#8, 0#8] := by decide +kernel

/-- A queue to flush in DWELL, WAITING, OVERSTAY under each policy, SWITCHING, a cycle and LOADING, and an empty
one. -/
theorem witness_HopFlushEmpties :
    (∀ st : ChanState, let s := withA (chanIn st (gate .closed 0 HoldSet.noHopOnly) [entry .line false] true)
      s.takes (rq 1#8) .hopFlush [0#8] ∧ s.chA.queue ≠ [] ∧ s.chA.cfg.policy = .hold ∧
      s.chA.cfg.cycle = false ∧ s.chA.selfHead = false) ∧
    ((loading false).loader.ctx.map LoadCtx.chan = some .A ∧ (loading false).chA.st = .loading) ∧
    (base.takes (rq 1#8) .hopFlush [1#8] ∧ base.chB.queue = [] ∧ base.chB.st ≠ .loading) ∧
    (base.takes (rq 1#8) .hopFlush [2#8] ∧ chanOf 2#8 = none) ∧
    (∀ (st : ChanState) (policy : Policy) (cycle own : Bool) (old : HopEntry) (g : Gate),
      let x : Channel := { chanIn st g [entry .line false] true with
        cur := some old, selfHead := own,
        cfg := { ChanConfig.default with policy := policy, cycle := cycle } }
      (withA x).takes (rq 1#8) .hopFlush [0#8] ∧ x.queue ≠ [] ∧ x.st = st ∧ x.cfg.policy = policy ∧
      x.cfg.cycle = cycle ∧ x.selfHead = own ∧ x.cur = some old ∧ x.gate = g ∧ x.cfg.ramp ≠ 0) ∧
    (gate .opened 1024 noHold).lawful = true ∧ (gate .closing 0 blankHold).lawful = true :=
  ⟨fun _ => ⟨takes_of_idle rfl rfl rfl, List.cons_ne_nil _ _, rfl, rfl, rfl⟩, ⟨rfl, rfl⟩,
    ⟨takes_of_idle rfl rfl rfl, rfl, by decide⟩, ⟨takes_of_idle rfl rfl rfl, rfl⟩,
    fun _ _ _ _ _ _ => ⟨takes_of_idle rfl rfl rfl, List.cons_ne_nil _ _, rfl, rfl, rfl, rfl, rfl, rfl,
      by simp [ChanConfig.default]⟩, rfl, rfl⟩

/-- A flush of a cycle in OVERSTAY leaves its LINE hop waiting, and the edge of that period, taken after it, has
no effect (R36). -/
theorem test_flush_before_the_edge :
    let s := nextOf (exec (.hopFlush (rq 1#8) 0#8) (withA
      { chanIn .overstay (gate .opened 1024 noHold) [entry .line false] true with
        cur := some (entry .line false), edgeDue := true,
        cfg := { ChanConfig.default with cycle := true } }))
    let t := nextOf (exec (.triggerEdge .A) s)
    s.chA.selfHead = true ∧ t.chA.st = .overstay ∧ t.chA.cur = some (entry .line false) := by decide +kernel

theorem witness_QueueGetReads : base.takes (rq 1#8) .queueGet [0#8, 64#8, 1#8] ∧
    base.takes (rq 1#8) .queueGet [0#8, 63#8, 0#8] ∧ base.takes (rq 1#8) .queueGet [0#8, 63#8, 9#8] ∧
    base.takes (rq 1#8) .queueGet [1#8, 63#8, 8#8] :=
  ⟨takes_of_idle rfl rfl rfl, takes_of_idle rfl rfl rfl, takes_of_idle rfl rfl rfl,
    takes_of_idle rfl rfl rfl⟩

theorem witness_StartTaken :
    (base.takes (rq 1#8) .start [2#8] ∧ chanOf 2#8 = none) ∧
    ((loading false).takes (rq 1#8) .start [0#8] ∧ (loading false).chA.st = .loading) ∧
    ((withA (playing [])).takes (rq 1#8) .start [0#8] ∧ (withA (playing [])).chA.st = .dwell) ∧
    (base.takes (rq 1#8) .start [0#8] ∧ base.chA.st = .idle ∧ base.chA.queue = []) ∧
    (∀ trigger blank, let s := withA (chanIn .idle (gate .closed 0 HoldSet.noHopOnly) [entry trigger blank] false)
     s.takes (rq 1#8) .start [0#8] ∧ s.chA.st = .idle ∧ s.chA.queue = entry trigger blank :: []) :=
  ⟨⟨takes_of_idle rfl rfl rfl, rfl⟩, ⟨takes_of_idle rfl rfl rfl, rfl⟩, ⟨takes_of_idle rfl rfl rfl, rfl⟩,
    ⟨takes_of_idle rfl rfl rfl, rfl, rfl⟩, fun _ _ => ⟨takes_of_idle rfl rfl rfl, rfl, rfl⟩⟩

/-- START with a LINE head waits, and with a TIME head at the count 0 starts at once (R57, R66). -/
theorem test_start_heads :
    let idle := fun t => withA (chanIn .idle (gate .closed 0 HoldSet.noHopOnly) [entry t false] false)
    (nextOf (exec (.start (rq 1#8) 0#8) (idle .line))).chA.st = .waiting ∧
    (nextOf (exec (.start (rq 1#8) 0#8) (idle (.time 0#48)))).chA.st = .dwell := by decide +kernel

/-- Both modes of STOP in any channel state, with any gate, ramp length and cycle mode, and in LOADING. -/
theorem witness_StopByState :
    (∀ (st : ChanState) g q own cfg, let s := withA (offering st g q (entry .after false) own cfg)
      s.takes (rq 1#8) .stop [0#8, 1#8] ∧ s.takes (rq 1#8) .stop [0#8, 0#8] ∧ s.chA.st = st ∧
      s.chA.gate = g ∧ s.chA.cfg = cfg) ∧
    ((loading true).takes (rq 1#8) .stop [0#8, 1#8] ∧ (loading true).chA.st = .loading) ∧
    (base.takes (rq 1#8) .stop [2#8, 1#8] ∧ chanOf 2#8 = none) :=
  ⟨fun _ _ _ _ _ => ⟨takes_of_idle rfl rfl rfl, takes_of_idle rfl rfl rfl, rfl, rfl, rfl⟩,
    ⟨takes_of_idle rfl rfl rfl, rfl⟩, takes_of_idle rfl rfl rfl, rfl⟩

/-- STOP NOW in cycle mode with the gate CLOSED: the hop rejoins the queue, and the channel is IDLE (R39, R64). -/
theorem test_stop_rejoins :
    let t := nextOf (exec (.stopNow (rq 1#8) 0#8) (withA (offering .dwell (gate .closed 0 hostHold)
      [entry .line false] (entry .after false) false { ChanConfig.default with cycle := true })))
    t.chA.st = .idle ∧ t.chA.cur = none ∧ t.chA.queue = [entry .line false, entry .after false] := by
  decide +kernel

theorem witness_ChannelConfigTaken :
    (base.takes (rq 1#8) .channelConfig (channelConfigPayload 0#8 2#8 1#8 2#8 1023#16 1#8 0xFFFFFF#24) ∧
      base.chA.st = .idle ∧ base.chA.queue = [] ∧ base.chA.gate.st = .closed ∧
      base.chA.gate.hold.noHop = true ∧ policyCode .stop = 2#8 ∧ edgeCode .both = 2#8) ∧
    base.takes (rq 1#8) .channelConfig (channelConfigPayload 0#8 3#8 0#8 0#8 1024#16 0#8 0#24) ∧
    base.takes (rq 1#8) .channelConfig (channelConfigPayload 2#8 0#8 0#8 0#8 0#16 0#8 0#24) ∧
    ((loading false).takes (rq 1#8) .channelConfig
      (channelConfigPayload 0#8 0#8 0#8 0#8 0#16 0#8 0#24) ∧ (loading false).chA.st = .loading) ∧
    ((withA (playing [])).takes (rq 1#8) .channelConfig
      (channelConfigPayload 0#8 0#8 0#8 0#8 0#16 0#8 0#24) ∧ (withA (playing [])).chA.st ≠ .idle) :=
  ⟨⟨takes_of_idle rfl rfl rfl, rfl, rfl, rfl, rfl, rfl, rfl⟩, takes_of_idle rfl rfl rfl,
    takes_of_idle rfl rfl rfl, ⟨takes_of_idle rfl rfl rfl, rfl⟩, takes_of_idle rfl rfl rfl,
    by decide⟩

theorem witness_ChannelGetReads : base.takes (rq 1#8) .channelGet [1#8] ∧
    base.takes (rq 1#8) .channelGet [2#8] ∧ chanOf 1#8 = some .B ∧ chanOf 2#8 = none :=
  ⟨takes_of_idle rfl rfl rfl, takes_of_idle rfl rfl rfl, rfl, rfl⟩

/-- A channel ready on a blank PAIRED head in OVERSTAY under HOST alone (R77). -/
def heldPair : State :=
  withA { chanIn .overstay (gate .closed 0 hostHold) [entry .paired true] true with ready := true }

/-- The same under LINE alone. -/
def linePair : Channel :=
  { heldPair.chA with
    gate := gate .closed 0 { noHold with line := true }, cfg := { ChanConfig.default with follow := true } }

/-- A channel with a current hop whose gate the reason of its state holds: SWITCHING and ENDING. -/
def heldIn (st : ChanState) (hold : HoldSet) : State :=
  withA (chanIn st (gate .closing 512 hold) [entry .line true] true)

theorem witness_GateRequests :
    (∀ a : Byte, base.takes (rq 1#8) .gate [2#8, a]) ∧
    (∀ a : Byte, (withA (playing [])).takes (rq 1#8) .gate [0#8, a]) ∧
    (withA (playing [])).chA.gate.lawful = true ∧ (withA (playing [])).chA.readyBlankOverstay = false ∧
    heldPair.takes (rq 1#8) .gate [0#8, 1#8] ∧ heldPair.chA.readyBlankOverstay = true ∧
    heldPair.chA.gate.lawful = true ∧ heldPair.chA.gate.hold = hostHold ∧
    (∀ p ∈ [(ChanState.switching, blankHold), (.ending .idle, endHold), (.ending .waiting, endHold)],
      let s := heldIn p.1 p.2
      s.takes (rq 1#8) .gate [0#8, 0#8] ∧ s.chA.st = p.1 ∧ s.chA.gate.lawful = true ∧
      s.chA.gate.hold.isEmpty = false) := by
  refine ⟨fun _ => takes_of_idle rfl rfl rfl, fun _ => takes_of_idle rfl rfl rfl, rfl, rfl,
    takes_of_idle rfl rfl rfl, rfl, rfl, rfl, fun p hp => ⟨takes_of_idle rfl rfl rfl, rfl, ?_⟩⟩
  revert p; decide +kernel

theorem witness_ReportConfigSets : base.takes (rq 1#8) .reportConfig (be16 0x04FE#16) ∧
    base.takes (rq 1#8) .reportConfig (be16 0x0001#16) ∧ 0x04FE#16 &&& 0xFB01#16 = 0#16 ∧
    0x0001#16 &&& 0xFB01#16 ≠ 0#16 :=
  ⟨takes_of_idle rfl rfl rfl, takes_of_idle rfl rfl rfl, by decide, by decide⟩

/-- Each changing request on area 7 in the states its clauses name; WP is an operand. -/
theorem witness_StoreRequestsTaken :
    (∀ d : Dir, (withDir d base).takes (rq 1#8) .storeErase [7#8] ∧
      (withDir d base).takes (rq 1#8) .storeRevoke [7#8] ∧
      (∀ a b c : Byte, (withDir d base).takes (rq 1#8) .storeCommit [7#8, a, b, c]) ∧
      (∀ c : Byte, (withDir d base).takes (rq 1#8) .storeWrite (7#8 :: c :: List.replicate 64 0#8)) ∧
      (withDir d base).store.dir 7 = d ∧ (withDir d base).store.engine = .idle) ∧
    ({ Dir.unused with eraseCount := 20000 } : Dir).eraseCount = 20000 ∧
    61 ∈ ({ Dir.unused with written := [61] } : Dir).written ∧ validDir.st = .valid ∧
    validDir.commit = some record ∧ record.autostart = true ∧
    base.takes (rq 1#8) .storeErase [8#8] ∧ base.takes (rq 1#8) .storeRevoke [8#8] ∧
    base.takes (rq 1#8) .storeWrite (7#8 :: 62#8 :: List.replicate 64 0#8) ∧
    base.takes (rq 1#8) .storeCommit [7#8, 0#8, 0#8, 2#8] :=
  ⟨fun _ => ⟨takes_of_idle rfl rfl rfl, takes_of_idle rfl rfl rfl, fun _ _ _ => takes_of_idle rfl rfl rfl,
      fun _ => takes_of_idle rfl rfl rfl, rfl, rfl⟩,
    rfl, by decide, rfl, rfl, rfl, takes_of_idle rfl rfl rfl, takes_of_idle rfl rfl rfl,
    takes_of_idle rfl rfl rfl, takes_of_idle rfl rfl rfl⟩

theorem witness_StoreBusyRefuses : State.reset.store.engine ≠ .idle ∧
    State.reset.takes (rq 1#8) .storeErase [7#8] ∧
    State.reset.takes (rq 1#8) .storeWrite (7#8 :: 61#8 :: List.replicate 64 0#8) ∧
    State.reset.takes (rq 1#8) .storeCommit [7#8, boolCode true, chanCode .B, boolCode true] ∧
    State.reset.takes (rq 1#8) .storeRevoke [7#8] ∧
    State.reset.takes (rq 1#8) .storeRead (7#8 :: be16 4095#16 ++ [1#8]) ∧
    State.reset.takes (rq 1#8) .storeBlank [7#8] ∧
    State.reset.takes (rq 1#8) .storeDigest [7#8, 63#8, 63#8] ∧
    State.reset.takes (rq 1#8) .storeInfo [] ∧
    State.reset.takes (rq 1#8) .load [7#8, chanCode .B, boolCode true] :=
  ⟨by decide, takes_of_idle rfl rfl rfl, takes_of_idle rfl rfl rfl, takes_of_idle rfl rfl rfl,
    takes_of_idle rfl rfl rfl, takes_of_idle rfl rfl rfl, takes_of_idle rfl rfl rfl,
    takes_of_idle rfl rfl rfl, takes_of_idle rfl rfl rfl, takes_of_idle rfl rfl rfl⟩

/-- An erased area, and one whose first used byte is its last. -/
theorem witness_StoreReadingAnswers :
    base.takes (rq 1#8) .storeRead (7#8 :: be16 4095#16 ++ [1#8]) ∧
    base.takes (rq 1#8) .storeRead (7#8 :: be16 3896#16 ++ [200#8]) ∧
    base.takes (rq 1#8) .storeBlank [7#8] ∧ base.takes (rq 1#8) .storeDigest [7#8, 0#8, 63#8] ∧
    base.takes (rq 1#8) .storeInfo [] ∧ (∀ x, memRead base.store.mem x = 0xFF#8) ∧
    (memRead [(32767, 0#8)] (4096 * 7 + 4095) ≠ 0xFF#8 ∧
      ∀ j, j < 4095 → memRead [(32767, 0#8)] (4096 * 7 + j) = 0xFF#8) ∧
    base.takes (rq 1#8) .storeRead (7#8 :: be16 3897#16 ++ [200#8]) ∧
    base.takes (rq 1#8) .storeBlank [8#8] ∧ base.takes (rq 1#8) .storeDigest [7#8, 63#8, 62#8] :=
  ⟨takes_of_idle rfl rfl rfl, takes_of_idle rfl rfl rfl, takes_of_idle rfl rfl rfl,
    takes_of_idle rfl rfl rfl, takes_of_idle rfl rfl rfl, fun _ => rfl,
    ⟨by decide, fun j hj => by
      have h : ¬32767 = 4096 * 7 + j := by omega
      simp only [memRead, h, if_false, Config.erased]⟩,
    takes_of_idle rfl rfl rfl, takes_of_idle rfl rfl rfl, takes_of_idle rfl rfl rfl⟩

theorem witness_StoreCompletions :
    Memory.wf base.store.mem = true ∧ base.store.op = none ∧
    (running .erasing (.erase 7 1#8)).store.op = some (.erase 7 1#8) ∧
    (running .writing (.write 7 1#8 61 (List.replicate 64 0#8))).store.op =
      some (.write 7 1#8 61 (List.replicate 64 0#8)) ∧
    (running .committing (.commit 7 1#8 true .B true (some record))).store.op =
      some (.commit 7 1#8 true .B true (some record)) ∧
    (withDir validDir (running .revoking (.revoke 7 1#8))).store.op = some (.revoke 7 1#8) ∧
    ((withDir validDir base).store.dir 7).commit = some record ∧
    (let s := running .erasing (.erase 7 1#8)
     (∀ b q n d, s.store.op ≠ some (.write b q n d)) ∧
     (∀ b q au c sa rec, s.store.op ≠ some (.commit b q au c sa rec)) ∧
     (∀ b q, s.store.op ≠ some (.revoke b q)) ∧ ∀ cause, s.store.op ≠ some (.scan cause)) ∧
    (∀ b q, (running .writing (.write 7 1#8 61 [])).store.op ≠ some (.erase b q)) :=
  ⟨rfl, rfl, rfl, rfl, rfl, rfl, rfl,
    ⟨by simp [running], by simp [running], by simp [running], by simp [running]⟩, by simp [running]⟩

/-- An image of one slot and one hop, as Tables 7-13 to 7-15 lay it out; an erased area is no image. -/
def imageOf (blank : Bool) : List Byte :=
  let body := [3#8] ++ be32 tone3.word ++ be16 tone3.offset ++ List.replicate 9 0#8 ++
    encodeEntry { entry .after blank with tag := none } ++ List.replicate 9 0#8
  let head := [0x47#8, 0x57#8, 1#8, 1#8, 1#8, 0#8] ++ be16 48#16 ++ List.replicate 6 0#8
  head ++ be16 (crc16 (head ++ body)) ++ body

/-- The image whose hop is not blank. -/
def image : List Byte := imageOf false

/-- An image whose slot has a label of 8 characters and whose hop has a time and a tag. -/
def fullImage : List Byte :=
  let body := [47#8] ++ be32 tone3.word ++ be16 tone3.offset ++ [8#8] ++ List.replicate 8 0x7E#8 ++
    encodeEntry { entry (.time 5#48) true with slot := 47 } ++ [0xFF#8]
  let head := [0x47#8, 0x57#8, 1#8, 1#8, 1#8, 0#8] ++ be16 48#16 ++ List.replicate 6 0#8
  head ++ be16 (crc16 (head ++ body)) ++ body

/-- The fields of Tables 7-14 and 7-15 as validation reads them, at the ends of their ranges. -/
theorem test_validation_fields : (validateImage (byteAt fullImage)).toOption =
    some { slots := [(47, { tone3 with label := some (List.replicate 8 0x7E#8) })],
           hops := [{ entry (.time 5#48) true with slot := 47 }] } := by decide +kernel

/-- The bytes of an image as area 7 holds them. -/
def imageCells : List Host.Cell := image.zipIdx.map fun p => (4096 * 7 + p.2, p.1)

def committing : State :=
  { running .committing (.commit 7 1#8 true .A true none) with
    store := { base.store with
      engine := .committing, op := some (.commit 7 1#8 true .A true none), mem := imageCells } }

/-- Why an image fails validation. -/
def reasonOf (bytes : List Byte) : Option (Nat × Nat) :=
  match validateImage (byteAt bytes) with
  | .error e => some e
  | .ok _ => none

/-- A reason that is given is validation's answer. -/
theorem reasonOf_eq {bytes : List Byte} {e : Nat × Nat} (h : reasonOf bytes = some e) :
    validateImage (byteAt bytes) = .error e := by
  unfold reasonOf at h
  split at h
  · rename_i e' he; rw [he, Option.some.inj h]
  · cases h

theorem witness_ValidationOutcomes :
    committing.store.op = some (.commit 7 1#8 true .A true none) ∧
    (validateImage (committing.store.areaByte 7)).toOption =
      some { slots := [(3, tone3)], hops := [{ entry .after false with tag := none }] } ∧
    (∃ e, validateImage (committing.store.areaByte 0) = .error e) ∧
    committing.store.areaByte 0 0 ≠ 0x47#8 ∧
    (committing.store.areaByte 7 0 = 0x47#8 ∧ committing.store.areaByte 7 1 = 0x57#8) ∧
    validateImage (byteAt (image.set 20 0x55#8)) = .error (5, 0) :=
  ⟨rfl, by decide +kernel, ⟨(1, 0), rfl⟩, by decide, ⟨by decide, by decide⟩,
    reasonOf_eq (by decide +kernel)⟩

/-- Why an image with bytes changed, and its CRC made anew, fails validation. -/
def failure (bytes : List Byte) (changes : List (Nat × Byte)) : Option (Nat × Nat) :=
  let body := changes.foldl (fun bs p => bs.set p.1 p.2) bytes
  let sum := crc16 (body.take 14 ++ body.drop 16)
  reasonOf ((body.set 14 (sum.extractLsb' 8 8)).set 15 (sum.extractLsb' 0 8))

/-- Table 9-7: the reasons 2 to 4 and 6 to 10, each with the offset of its record; reason 7 in an image whose one
slot record stands twice. -/
theorem test_validation_reasons :
    failure image [] = none ∧ failure image [(2, 2#8)] = some (2, 0) ∧
    failure image [(4, 65#8)] = some (3, 0) ∧ failure image [(7, 49#8)] = some (4, 0) ∧
    failure image [(16, 48#8)] = some (6, 16) ∧
    failure (image.take 32 ++ image.drop 16) [(3, 2#8), (7, 64#8)] = some (7, 32) ∧
    failure image [(23, 9#8)] = some (8, 16) ∧ failure image [(32, 4#8)] = some (9, 32) ∧
    failure image [(33, 0x83#8)] = some (10, 32) := by decide +kernel

theorem witness_RecordsReadBack : record.slotCount = image.getD 3 0#8 ∧
    record.hopCount = image.getD 4 0#8 ∧ slotUseSize record.slotUse = record.slotCount.toNat := by
  decide +kernel

/-- A store whose area 7 is marked, VALID with a lost record, and VALID with an intact record and, or
without, a revoke record. -/
def scanned (d : Dir) (mem : List Host.Cell) : State :=
  { State.reset with
    store := { State.reset.store with dirs := State.reset.store.dirs.set 7 d, mem := mem } }

/-- The record of `image`, and the cells of area 7 with it and a revoke record: an unlisted byte is erased. -/
def imageRecord : CommitRec := { record with imageCrc := 0x2EB8#16 }

def cellsAt (start : Nat) (bytes : List Byte) : List Host.Cell := bytes.zipIdx.map fun p => (start + p.2, p.1)

def recordCells : List Host.Cell :=
  cellsAt (4096 * 7 + 3968) [0x43#8, 0x4D#8, 0#8, 48#8, 0x2E#8, 0xB8#8, 8#8, 0#8, 0#8, 0#8, 0#8, 0#8, 1#8,
    1#8, 1#8, 0#8, 0#8] ++ cellsAt (4096 * 7 + 4030) [0x47#8, 0xB9#8]

def revokeCells : List Host.Cell :=
  cellsAt (4096 * 7 + 4032) [0x52#8, 0x56#8, 0x2E#8, 0xB8#8] ++ cellsAt (4096 * 7 + 4094) [0xF3#8, 0xB5#8]

/-- The CRC of a list in two parts, for evaluation. -/
theorem crc16_parts {bs : List Byte} (n : Nat) {c d : BitVec 16} (h : crc16 (bs.take n) = c)
    (h' : (bs.drop n).foldl crcByte c = d) : crc16 bs = d := by
  rw [← h', ← h, crc16, crc16, ← List.foldl_append, List.take_append_drop]

/-- Area 7 with the record, and with the revoke record too. -/
def kept : State := scanned validDir (imageCells ++ recordCells)

def withdrawn : State := scanned validDir (imageCells ++ recordCells ++ revokeCells)

/-- A byte of the image has changed; the revoke record is half written. -/
def spoilt : State := scanned validDir (imageCells.set 20 (4096 * 7 + 20, 0x55#8) ++ recordCells)

def halfRevoked : State := scanned validDir (imageCells ++ recordCells ++ revokeCells.take 4)

theorem spoilt_crc : crc16 ((List.range 62).map (spoilt.store.chunkByte 7 62)) = 0x47B9#16 :=
  crc16_parts 31 (c := 0xF45F#16) (by decide +kernel) (by decide +kernel)

theorem kept_crc : crc16 ((List.range 62).map (kept.store.chunkByte 7 62)) = 0x47B9#16 :=
  crc16_parts 31 (c := 0xF45F#16) (by decide +kernel) (by decide +kernel)

theorem withdrawn_crc : crc16 ((List.range 62).map (withdrawn.store.chunkByte 7 62)) = 0x47B9#16 :=
  crc16_parts 31 (c := 0xF45F#16) (by decide +kernel) (by decide +kernel)

theorem withdrawn_revoke_crc :
    crc16 ((List.range 62).map (withdrawn.store.chunkByte 7 63)) = 0xF3B5#16 :=
  crc16_parts 31 (c := 0xFF34#16) (by decide +kernel) (by decide +kernel)

theorem witness_ScanCompletes :
    (∀ d m, (scanned d m).store.op = some (.scan .cold) ∧ (scanned d m).store.dir 7 = d) ∧
    intactCommit ((scanned validDir []).store.chunkByte 7 62) ((scanned validDir []).store.areaByte 7) =
      none ∧
    (intactCommit (withdrawn.store.chunkByte 7 62) (withdrawn.store.areaByte 7) = some imageRecord ∧
     imageCrc (withdrawn.store.areaByte 7) 48 = imageRecord.imageCrc ∧
     intactRevoke (withdrawn.store.chunkByte 7 63) imageRecord.imageCrc = true) ∧
    (intactCommit (kept.store.chunkByte 7 62) (kept.store.areaByte 7) = some imageRecord ∧
     imageCrc (kept.store.areaByte 7) 48 = imageRecord.imageCrc ∧
     ∀ i, i < 64 → kept.store.chunkByte 7 63 i = 0xFF#8) ∧
    (imageCrc (spoilt.store.areaByte 7) 48 ≠ imageRecord.imageCrc ∧
     intactCommit (spoilt.store.chunkByte 7 62) (spoilt.store.areaByte 7) = some imageRecord) ∧
    (intactRevoke (halfRevoked.store.chunkByte 7 63) imageRecord.imageCrc = false ∧
     halfRevoked.store.chunkByte 7 63 0 ≠ 0xFF#8) ∧
    ((scanned validDir []).link = Link.reset .r115200 ∧ (scanned validDir []).reports.queue = [] ∧
     (scanned validDir []).reports.completion = none) := by
  refine ⟨fun _ _ => ⟨rfl, rfl⟩, by decide +kernel, ⟨?_, by decide +kernel, ?_⟩,
    ⟨?_, by decide +kernel, by decide +kernel⟩, ⟨by decide +kernel, ?_⟩,
    ⟨by decide +kernel, by decide +kernel⟩, rfl, rfl, rfl⟩
  · rw [intactCommit, withdrawn_crc]; decide +kernel
  · rw [intactRevoke, withdrawn_revoke_crc]; decide +kernel
  · rw [intactCommit, kept_crc]; decide +kernel
  · rw [intactCommit, spoilt_crc]; decide +kernel

theorem witness_RetentionLossChanges : Memory.wf base.store.mem = true ∧
    (7 < 8 ∧ ∀ p ∈ [(4095, 0#8), (4095, 1#8)], p.1 < 4096) ∧
    ∃ p ∈ [(0, 0#8), (4096, 0#8)], 4096 ≤ p.1 := by decide

theorem witness_LoadAccepted :
    base.takes (rq 1#8) .load [8#8, 0#8, 0#8] ∧ base.takes (rq 1#8) .load [7#8, 2#8, 0#8] ∧
    base.takes (rq 1#8) .load [7#8, 0#8, 2#8] ∧
    (base.takes (rq 1#8) .load [7#8, 0#8, 1#8] ∧ (base.store.dir 7).st ≠ .valid) ∧
    (let s := withDir validDir base
     s.takes (rq 1#8) .load [7#8, 0#8, 1#8] ∧ s.store.engine = .idle ∧ (s.store.dir 7).st = .valid ∧
     (s.store.dir 7).commit = some record ∧ s.chA.st = .idle) ∧
    (let s := withDir validDir (withA (playing []))
     s.takes (rq 1#8) .load [7#8, 0#8, 1#8] ∧ s.chA.st ≠ .idle) :=
  ⟨takes_of_idle rfl rfl rfl, takes_of_idle rfl rfl rfl, takes_of_idle rfl rfl rfl,
    ⟨takes_of_idle rfl rfl rfl, by decide⟩, ⟨takes_of_idle rfl rfl rfl, rfl, rfl, rfl, rfl⟩,
    takes_of_idle rfl rfl rfl, by decide⟩

/-- Area 7 stands next on the autostart list. -/
def listed (chosen : Bool) (d : Dir) (s : State) : State :=
  withDir d { s with
    loader := { Loader.reset with auto := [{ area := 7, chosen := chosen, chan := .A }] } }

theorem witness_AutostartSteps :
    (∀ chosen d, (listed chosen d base).store.engine = .idle ∧
      (listed chosen d base).loader.auto[(listed chosen d base).loader.autoPos]? =
        some { area := 7, chosen := chosen, chan := .A } ∧
      (listed chosen d base).store.dir 7 = d) ∧
    ((listed true validDir base).chan record.chan).st = .idle ∧
    ((listed true validDir (withA (playing []))).chan record.chan).st ≠ .idle ∧
    base.loader.auto[base.loader.autoPos]? = none ∧
    Dir.unused.commit = none ∧ validDir.commit = some record :=
  ⟨fun _ _ => ⟨rfl, rfl, rfl⟩, rfl, by decide, rfl, rfl, rfl⟩

/-- A chosen area erased since the list was formed ends its step AREA_STATE with detail 0xFF (R183). -/
theorem test_autostart_of_an_erased_area :
    (nextOf (exec .autostartStep (busy (listed true Dir.unused base)))).reports.completion.map
      Report.body = some (.loadDone 0#8 .A 7 .areaState 0xFF#8) := by decide

/-- Area 7 holds these 48 bytes, with their CRC in its record, and is being loaded for channel A; `b` is channel
B and `ramp` the ramp length of A. -/
def loadingBytes (bytes : List Byte) (start : Bool) (ramp : Nat) (b : Channel) (pins : Nat) : State :=
  let rec' := { record with imageCrc := imageCrc (byteAt bytes) 48 }
  let s := loaded pins (withDir { validDir with commit := some rec' } (loading start))
  { s with
    chA := { s.chA with cfg := { ChanConfig.default with ramp := ramp } }, chB := b,
    store := { s.store with mem := bytes.zipIdx.map fun p => (4096 * 7 + p.2, p.1) } }

def loadingImage : Bool → Nat → Channel → Nat → State := loadingBytes image

/-- Channel B plays slot 3. -/
def playing3 : Channel := { playing [] with cur := some (entry .after false) }

/-- What the loader stages of the 48 bytes of area 7. -/
def staged7 (s : State) : Nat → Byte := stagedByte (s.store.areaSlice 7 0 (min 48 1808))

/-- The program of `imageOf blank`. -/
def programOf (blank : Bool) : Program :=
  { slots := [(3, tone3)], hops := [{ entry .after blank with tag := none }] }

/-- A load that passes, one for each check that fails (slot 3 pinned by channel B under another tone; a blank hop
whose dwell is the ramp length), an image that is no program, a CRC that does not match, and a record that is
gone. -/
theorem witness_LoadCompletes :
    (∀ s : State, s.noteClock false = s) ∧
    (let s := loadingImage true 64 Channel.reset 0
     s.lawful = true ∧ (s.chan .B).ready = false ∧
     s.loader.ctx = some { area := 7, chan := .A, start := true, seq := 9#8 } ∧
     (s.store.dir 7).commit = some imageRecord ∧ imageCrc (staged7 s) 48 = imageRecord.imageCrc ∧
     programIn (staged7 s) = some (programOf false) ∧ s.conflicts .A (3, tone3) = false) ∧
    (let s := (loadingImage false 64 playing3 1).setSlot 3
       { tone := some { tone3 with word := 1#32 }, pins := 1, reserved := true }
     s.lawful = true ∧ 0 < (s.chan .B).pinsOn 3 ∧ tone3.word ≠ 1#32 ∧
     (s.slot 3).tone = some { tone3 with word := 1#32 } ∧
     (s.store.dir 7).commit = some imageRecord ∧ imageCrc (staged7 s) 48 = imageRecord.imageCrc ∧
     programIn (staged7 s) = some (programOf false)) ∧
    (let s := loadingBytes (imageOf true) false 100 Channel.reset 0
     s.lawful = true ∧ (s.store.dir 7).commit.map CommitRec.imageCrc = some (imageCrc (staged7 s) 48) ∧
     programIn (staged7 s) = some (programOf true) ∧ s.conflicts .A (3, tone3) = false ∧
     (entry .after true).dwell.toNat ≤ s.chA.cfg.ramp) ∧
    (let s := loadingBytes (List.replicate 48 0xFF#8) false 64 Channel.reset 0
     s.lawful = true ∧ (s.store.dir 7).commit.map CommitRec.imageCrc = some (imageCrc (staged7 s) 48) ∧
     programIn (staged7 s) = none) ∧
    (imageCrc (staged7 (loading true)) 48 ≠ record.imageCrc ∧ (loading true).lawful = true) ∧
    (let s := State.reserve (withDir Dir.unused (loading true)) 0#48
     s.lawful = true ∧ s.loader.ctx.isSome = true ∧ (s.store.dir 7).commit = none) ∧
    base.loader.ctx = none := by
  refine ⟨fun _ => rfl, ?_, ?_, ?_, ?_, ?_, ?_, rfl⟩ <;> decide +kernel

/-- An expiry with every gate and configuration, with and without a head, with and without stop-at-end. -/
theorem witness_DwellExpiries :
    (∀ g q cfg, let x := offering .dwell g q (entry .after false) false cfg
      x.st = .dwell ∧ x.cur.isSome = true ∧ x.dwell = 0 ∧ x.stopAtEnd = false ∧ x.queue = q ∧ x.cfg = cfg ∧
      x.gate = g) ∧
    ({ playing [] with stopAtEnd := true } : Channel).stopAtEnd = true ∧
    base.chA.st ≠ .dwell ∧ base.chB.cur = none :=
  ⟨fun _ _ _ => ⟨rfl, rfl, rfl, rfl, rfl, rfl, rfl⟩, rfl, by decide, rfl⟩

/-- Table 5-5: with a ramp length of 0 a blank AFTER head shuts the gate, starts and opens it in the one period of
the expiry, whose period gain is 0. -/
theorem test_blank_without_a_ramp :
    let t := nextOf (exec (.dwellExpiry .A) (busy (withA (offering .dwell (gate .opened 1024 noHold)
      [entry .after true] (entry .after false) false { ChanConfig.default with ramp := 0 }))))
    t.chA.st = .dwell ∧ t.chA.gate.st = .opened ∧ t.chA.gate.gain = 1024 ∧ t.chA.gate.periodGain = 0 := by
  decide +kernel

/-- A cycle whose current hop is the PAIRED head it waits on, its timer run out. -/
def ownCycle (queue : List HopEntry) : Channel :=
  { chanIn .overstay (gate .opened 1024 noHold) queue true with
    cur := some (entry .paired false), selfHead := true, ready := true, timer := some 0,
    cfg := { ChanConfig.default with cycle := true, pairTimeout := 9 } }

/-- A timer run out in WAITING, OVERSTAY and SWITCHING, on the head of a queue or the own current hop, with
anything behind it; and the pair start. -/
theorem witness_PairUnitActs :
    (∀ rest, let x : Channel :=
        { chanIn .waiting (gate .closed 0 HoldSet.noHopOnly) (entry .paired false :: rest) false with
          ready := true, timer := some 0 }
      x.ready = true ∧ x.timer = some 0 ∧ x.offers (entry .paired false) rest ∧ x.cur = none) ∧
    (∀ st g rest old cfg, let x : Channel :=
        { offering st g (entry .paired true :: rest) old false cfg with ready := true, timer := some 0 }
      x.ready = true ∧ x.timer = some 0 ∧ x.offers (entry .paired true) rest ∧ x.cur.isSome = true) ∧
    ((playing [entry .paired false]).expiryDue = true ∧ (playing [entry .paired false]).ready = false ∧
      heldPair.chA.ready = true ∧ heldPair.chA.selfHead = false ∧ heldPair.chA.cfg.cycle = false) ∧
    base.chA.ready = false ∧
    (∀ q, (ownCycle q).ready = true ∧ (ownCycle q).timer = some 0 ∧
     (ownCycle q).offers (entry .paired false) q) :=
  ⟨fun _ => ⟨rfl, rfl, .inl ⟨rfl, rfl⟩, rfl⟩, fun _ _ _ _ _ => ⟨rfl, rfl, .inl ⟨rfl, rfl⟩, rfl⟩,
    ⟨rfl, rfl, rfl, rfl, rfl⟩, rfl, fun _ => ⟨rfl, rfl, .inr ⟨rfl, rfl, rfl⟩⟩⟩

/-- A cycle of one PAIRED hop makes one PAIR_TIMEOUT and waits again, with a fresh timer (R82). -/
theorem test_pair_timeout_of_a_cycle :
    let t := nextOf (exec (.pairTimerExpiry .A) (busy (withA (ownCycle []))))
    t.chA = { ownCycle [] with timer := some 9 } ∧
    t.reports.queue = [⟨.pairTimeout .A (some 7#16), 1⟩] := by decide +kernel

/-- Table 4-2: an expiry in SWITCHING under HOLD opens the gate from gain 0. -/
theorem test_pair_timeout_in_switching :
    let t := nextOf (exec (.pairTimerExpiry .A) (busy (withA
      { chanIn .switching (gate .closed 0 blankHold) [entry .paired true] true with
        ready := true, timer := some 0 })))
    t.chA.st = .overstay ∧ t.chA.gate.st = .opening ∧ t.chA.gate.gain = 0 ∧
    t.chA.gate.hold = noHold := by decide +kernel

theorem witness_GateArrivals :
    (gate .opening 1024 noHold).arrived = true ∧ (gate .closing 1 hostHold).arrived = false ∧
    (∀ st q e own cfg, let x := offering st (gate .closing 0 endHold) q e own cfg
      x.gate.st = .closing ∧ x.gate.gain = 0 ∧ x.st = st ∧ x.queue = q ∧ x.cfg = cfg) ∧
    (∀ q e cfg, (offering .switching (gate .closing 0 blankHold) q e true cfg).offers e q) ∧
    (∀ hop rest e cfg,
      (offering .switching (gate .closing 0 blankHold) (hop :: rest) e false cfg).offers hop rest) ∧
    (entry .line true).trigger ≠ .paired ∧ (entry .paired true).trigger = .paired :=
  ⟨rfl, rfl, fun _ _ _ _ _ => ⟨rfl, rfl, rfl, rfl, rfl⟩, fun _ _ _ => .inr ⟨rfl, rfl, rfl⟩,
    fun _ _ _ _ => .inl ⟨rfl, rfl⟩, by decide, rfl⟩

/-- The gate shuts towards a blank PAIRED head: the channel is ready with its whole pair timeout (R76, R81). -/
theorem test_arrival_makes_ready :
    let t := nextOf (exec (.gateArrival .A) (withA (offering .switching (gate .closing 0 blankHold)
      [entry .paired true] (entry .after false) false { ChanConfig.default with pairTimeout := 9 })))
    t.chA.st = .switching ∧ t.chA.ready = true ∧ t.chA.timer = some 9 := by decide +kernel

/-- ENDING towards WAITING completes in cycle mode on an empty queue: the hop has rejoined, is the head, and starts
again (R39, R64). -/
theorem test_ending_of_a_cycle :
    let t := nextOf (exec (.gateArrival .A) (withA (offering (.ending .waiting) (gate .closing 0 endHold)
      [] (entry .after false) false { ChanConfig.default with cycle := true })))
    t.chA.st = .dwell ∧ t.chA.cur = some (entry .after false) ∧ t.chA.queue = [] := by decide +kernel

/-- A head of each trigger, blank or not, and the own current hop, under every gate. -/
theorem witness_HeadTriggers :
    (∀ st g t blank rest, let x : Channel := { chanIn st g (entry t blank :: rest) false with edgeDue := true }
      x.st = st ∧ x.edgeDue = true ∧ x.offers (entry t blank) rest ∧ x.gate = g) ∧
    (∀ g t blank q, let x : Channel :=
        { offering .overstay g q (entry t blank) true { ChanConfig.default with cycle := true } with
          edgeDue := true }
      x.edgeDue = true ∧ x.offers (entry t blank) q) ∧
    (∀ st, let x : Channel := { chanIn st (gate .closed 0 HoldSet.noHopOnly) [] false with edgeDue := true }
      x.edgeDue = true ∧ x.queue = [] ∧ x.selfHead = false ∧ x.st = st) ∧
    base.chA.edgeDue = false ∧ (entry (.time 0#48) false).trigger = .time base.epoch.count ∧
    (entry .line true).trigger = .line :=
  ⟨fun _ _ _ _ _ => ⟨rfl, rfl, .inl ⟨rfl, rfl⟩, rfl⟩, fun _ _ _ _ => ⟨rfl, .inr ⟨rfl, rfl, rfl⟩⟩,
    fun _ => ⟨rfl, rfl, rfl, rfl⟩, rfl, rfl, rfl⟩

theorem witness_EpochAndLineEvents :
    (let s : State := { base with
        epoch := { Epoch.reset with arm := .once, syncDue := true, wrapDue := true }, gatePin := true }
     s.epoch.syncDue = true ∧ s.epoch.wrapDue = true ∧ s.epoch.arm ≠ .disarmed ∧
     s.gatePin ≠ s.gateLine ∧ (∀ c, (s.chan c).coherentNow = none) ∧ s.reports.begun = 0 ∧
     ∀ c, (s.chan c).st ≠ .switching ∧ (s.chan c).st.isEnding = false ∧ (s.chan c).gate.lawful = true) ∧
    base.epoch.syncDue = false ∧ base.epoch.wrapDue = false ∧ base.gatePin = base.gateLine ∧
    base.epoch.arm = .disarmed ∧ base.chA.readyBlankOverstay = false ∧
    (let x := { linePair with gate := { linePair.gate with hold := { noHold with line := false } } }
     linePair.readyBlankOverstay = true ∧ linePair.gate.hold.isEmpty = false ∧
     x.gate.hold.isEmpty = true ∧ linePair.st ≠ .switching ∧ linePair.gate.lawful = true) ∧
    (∀ p ∈ [(ChanState.switching, blankHold), (.ending .idle, endHold), (.ending .waiting, endHold)],
      let s := { heldIn p.1 p.2 with gatePin := true }
      s.gatePin ≠ s.gateLine ∧ s.chA.st = p.1 ∧ s.chB.st = .idle ∧
      (s.chA.gate.lawful = true ∧ s.chB.gate.lawful = true) ∧ s.chA.gate.hold.isEmpty = false) :=
  ⟨⟨rfl, rfl, by decide, by decide, fun c => by cases c <;> rfl, rfl,
      fun c => by cases c <;> exact ⟨by decide, rfl, rfl⟩⟩, rfl, rfl, rfl, rfl, rfl,
    ⟨rfl, rfl, rfl, by decide, rfl⟩, by decide +kernel⟩

/-- The GATE line rises on a following channel that plays: LINE shuts its gate, with its GATE_STATE (R101, R103). -/
theorem test_line_shuts_a_gate :
    (nextOf (exec .gateLineChange (busy { withA { playing [] with
      cfg := { ChanConfig.default with follow := true } } with gatePin := true }))).reports.queue.map
        Report.body = [.gateState .A .closing { noHold with line := true }] := by decide +kernel

/-- The GATE line falls while it alone holds the gate of a channel ready on a blank PAIRED head: BLANK takes its
place and the gate stays CLOSED (R77). -/
theorem test_line_leaves_ready_pair :
    let t := nextOf (exec .gateLineChange { withA linePair with gateLine := true, gatePin := false })
    t.chA.st = .switching ∧ t.chA.ready = true ∧ t.chA.gate.st = .closed ∧
      t.chA.gate.hold = blankHold := by decide +kernel

theorem witness_SamplePeriodAdvances : base.quiet ∧ (withA { playing [] with dwell := 1 }).quiet ∧
    (let s : State := { base with epoch := { Epoch.reset with wrapHeld := true } }
     s.epoch.wrapHeld = true ∧ ({ s with epoch := { s.epoch with wrapHeld := false } } : State).quiet) ∧
    (let s : State := { base with epoch := { Epoch.reset with wrapDue := true } }
     s.closePeriod.epoch.wrapHeld = true) ∧ base.closePeriod.epoch.wrapHeld = false :=
  ⟨⟨rfl, rfl, rfl, rfl, fun c => by cases c <;> exact ⟨rfl, rfl, rfl, rfl, rfl⟩⟩,
    ⟨rfl, rfl, rfl, rfl, fun c => by cases c <;> exact ⟨rfl, rfl, rfl, rfl, rfl⟩⟩,
    ⟨rfl, rfl, rfl, rfl, rfl, fun c => by cases c <;> exact ⟨rfl, rfl, rfl, rfl, rfl⟩⟩, rfl, rfl⟩

theorem witness_RampLands : (gate .closing 1024 hostHold).gain ≤ 1024 ∧ (gate .opening 0 noHold).gain = 0 ∧
    1 ≤ 1023 := by decide

/-- The receiver in each state, with what it has kept. -/
def receiving (rx : RxState) (buf : List Byte) : State :=
  { base with link := { base.link with rx := rx, buf := buf } }

theorem witness_ReceiverRows :
    (∀ rx buf, (receiving rx buf).link.deaf = false ∧ (receiving rx buf).link.rx = rx ∧
      (receiving rx buf).link.buf = buf) ∧
    (0x00#8 ++ 0x00#8 : BitVec 16) ≠ frameCheck 1#8 1#8 [] ∧ kindOf 0x40#8 = none ∧
    base.link.lookup 0#8 (frameCheck 0x40#8 0#8 []) = .fresh ∧ base.link.roomy = true :=
  ⟨fun _ _ => ⟨rfl, rfl, rfl⟩, by decide +kernel, by decide, rfl, rfl⟩

theorem witness_FrameBytesAreAccepted : base.link.deaf = false ∧ base.link.rx = .hunt ∧
    (List.replicate 240 0xD3#8).length ≤ 240 := ⟨rfl, rfl, by decide +kernel⟩

theorem witness_RowsAreTheirBytes :
    requestOf (.gateHold (raw [0#8, 2#8]) 0#8) = some (raw [0#8, 2#8], .gate, [0#8, 0#8]) ∧
    base.link.deaf = false ∧ base.link.lookup 0#8 0#16 = .fresh ∧ base.link.roomy = true ∧
    lengthFits .gate [0#8] = false ∧
    (lengthFits .gate [0#8, 2#8] = true ∧ codesOf .gate ≠ [] ∧
      byteAt [0#8, 2#8] (codeAt .gate) ∉ codesOf .gate) :=
  ⟨rfl, rfl, rfl, rfl, rfl, rfl, by decide, by decide⟩

/-- A link with these replies waiting and this cache. -/
def linked (waiting : List Outgoing) (cache : List CacheEntry) : State :=
  { base with link := { base.link with waiting := waiting, cache := cache } }

def reply (seq : Byte) : Reply :=
  { seq := seq, check := frameCheck 1#8 seq [], frame := [], full := false }

theorem witness_RetryAndWindow :
    frameOf (.ping (rq 5#8) []) = some ((rq 5#8).pins, 1#8, 5#8, []) ∧
    frameOf (.gateHold (raw [0#8]) 0#8) = some ((rq 1#8).pins, kindCode .gate, 1#8, [0#8]) ∧
    frameOf (.unknownKind 5#8 (rq 5#8).pins 0x40#8 [7#8]) = some ((rq 5#8).pins, 0x40#8, 5#8, [7#8]) ∧
    base.link.deaf = false ∧
    (.reply (reply 5#8) ∈ (linked [.reply (reply 5#8)] []).link.waiting ∧
      (reply 5#8).check = frameCheck (kindCode .ping) 5#8 []) ∧
    (let s := linked [] [{ seq := 5#8, check := frameCheck 1#8 5#8 [], frame := [1#8] }]
     s.link.waiting = [] ∧ s.link.tx = none ∧ (s.link.cache.find? fun x => x.seq == 5#8) =
       some { seq := 5#8, check := frameCheck 1#8 5#8 [], frame := [1#8] }) ∧
    (let s := linked (List.replicate 4 (.reply (reply 6#8))) []
     4 ≤ s.link.waiting.countP Outgoing.isReply ∧ ∀ f, .refusal f ∉ s.link.waiting) ∧
    (let old : CacheEntry := { seq := 5#8, check := 0#16, frame := [1#8] }
     (linked [] [old]).link.cache.find? (fun x => x.seq == 5#8) = some old ∧
     old.check ≠ frameCheck 1#8 5#8 []) ∧
    .refusal [] ∈ (linked (.refusal [] :: List.replicate 4 (.reply (reply 6#8))) []).link.waiting :=
  ⟨rfl, rfl, rfl, rfl, ⟨by simp [linked], by simp [reply, kindCode]⟩, by simp [linked, base, State.reset, Link.reset],
    ⟨Nat.le_refl 4, by simp [linked]⟩, ⟨rfl, by decide +kernel⟩, by simp [linked]⟩

/-- A cached entry of the sequence with another check value is removed, and the frame executed (Table 6-5). -/
theorem test_retry_displaces :
    (nextOf (exec (.ping (rq 5#8) []) (linked [] [{ seq := 5#8, check := 0#16, frame := [1#8] }]))).link =
      { base.link with tx := some (.reply
          { reply 5#8 with frame := mkFrame 0x41#8 5#8 [] }) } := by decide +kernel

/-- For TransmissionEnds and ArbiterOrder. -/
theorem witness_transmitter :
    (∀ o, ({ base with link := { base.link with tx := some o } } : State).link.tx = some o) ∧
    base.link.tx = none ∧ base.link.fullResetDue = false ∧ base.link.waiting = [] ∧
    base.reports.completion = none ∧ base.reports.queue = [] ∧
    (∀ q, ({ base with reports := { base.reports with completion := some q } } : State).reports.completion =
      some q) ∧
    (∀ q rest, ({ base with reports := { base.reports with queue := q :: rest } } : State).reports.queue =
      q :: rest) ∧
    isPowerUp ⟨.powerUp .cold [], 1⟩ = true ∧ isPowerUp ⟨.epochEvent .wrap, 1⟩ = false :=
  ⟨fun _ => rfl, rfl, rfl, rfl, rfl, rfl, fun _ => rfl, fun _ _ => rfl, rfl, rfl⟩

theorem witness_ResetsAct :
    base.store.op = none ∧ (running .erasing (.erase 7 1#8)).store.op = some (.erase 7 1#8) ∧
    (running .writing (.write 7 1#8 61 [0#8])).store.op = some (.write 7 1#8 61 [0#8]) ∧
    base.link.fullResetDue = false ∧
    ({ base with link := { base.link with fullResetDue := true } } : State).link.fullResetDue = true ∧
    (running .committing (.commit 7 1#8 true .B true none)).store.op =
      some (.commit 7 1#8 true .B true none) ∧
    (running .committing (.commit 7 1#8 true .B true (some record))).store.op =
      some (.commit 7 1#8 true .B true (some record)) ∧
    ((withDir validDir (running .revoking (.revoke 7 1#8))).store.op = some (.revoke 7 1#8) ∧
      ((withDir validDir (running .revoking (.revoke 7 1#8))).store.dir 7).commit = some record) ∧
    State.reset.store.op = some (.scan .cold) ∧ base.ports.periodOpen = false ∧
    ({ base with ports := { base.ports with periodOpen := true } } : State).ports.periodOpen = true :=
  ⟨rfl, rfl, rfl, rfl, rfl, rfl, rfl, ⟨rfl, rfl⟩, rfl, rfl, rfl⟩

/-- A cold reset in a scan that has examined 7 areas, with DSTRB in 3 periods of the reset (R109, R167): area 6
is as the scan leaves it, area 7 keeps its marker. -/
theorem test_cold_reset_in_scan :
    let marked : Dir := { validDir with marker := .revoking }
    let s := scanned marked []
    let t := nextOf (exec (.coldReset { rate1 := true, rate0 := false } { progress := 7, periods := 3 })
      { s with store := { s.store with dirs := s.store.dirs.set 6 marked } })
    t.store.dir 6 = { Dir.unused with st := .damaged } ∧ t.store.dir 7 = marked ∧
    t.link.rate = .r921600 ∧ t.ports = Ports.reset 3 := by decide +kernel

/-- For KeepJoins, MergeFolds and ReplaceOverwrites: an open block with every kind enabled, empty and full; a
closed one; a masked kind; a report of each class that waits. -/
theorem witness_reports :
    (let b := base.reports
     b.isOpen = true ∧ b.lawful = true ∧ b.queue.length < 16 ∧
     b.mask.getLsbD (reportIndex (.hopBegin .A 0 none 0#48)) = true ∧
     b.mask.getLsbD (reportIndex (.epochEvent .sync)) = true ∧
     b.mask.getLsbD (reportIndex (.channelState .A .idle)) = true) ∧
    16 ≤ (List.replicate 16 (⟨.powerUp .cold [], 1⟩ : Report)).length ∧
    ReportBlock.reset.isOpen = false ∧
    (maskable (.linkFault .check) = true ∧ (0#16).getLsbD (reportIndex (.linkFault .check)) = false) ∧
    (reportClass (.epochEvent .sync) = .merge ∧ sameKey (.epochEvent .sync) (.epochEvent .sync) = true) ∧
    (reportClass (.channelState .A .idle) = .replace ∧
      sameKey (.channelState .A .dwell) (.channelState .A .idle) = true) := by decide

end Sys2Proof.Tests
end

section
/-! What an event of the hop engine can touch, said once: the channels less their configuration and their HOST
and LINE reasons, the pin counts, the epoch by an event of the period that is due, and the report block by reports
that hold no store engine. Every operation of the engine is such a chain of moves, and its frame follows. -/

namespace Sys2Proof.Machine

/-! Lists of pins. -/

/-- Pinning a list of entries changes the slots alone. -/
theorem pinAll_eq (s : State) (es : List HopEntry) : s.pinAll es = { s with slots := (s.pinAll es).slots } := by
  induction es generalizing s with
  | nil => rfl
  | cons e es ih =>
    have h : s.pinAll (e :: es) = (s.pin e.slot).pinAll es := rfl
    rw [h, ih]
    rfl

theorem unpinAll_eq (s : State) (es : List HopEntry) :
    s.unpinAll es = { s with slots := (s.unpinAll es).slots } := by
  induction es generalizing s with
  | nil => rfl
  | cons e es ih =>
    have h : s.unpinAll (e :: es) = (s.unpin e.slot).unpinAll es := rfl
    rw [h, ih]
    rfl

theorem pinAll_chan (s : State) (es : List HopEntry) (d : Chan) : (s.pinAll es).chan d = s.chan d := by
  rw [pinAll_eq]; cases d <;> rfl

theorem unpinAll_chan (s : State) (es : List HopEntry) (d : Chan) : (s.unpinAll es).chan d = s.chan d := by
  rw [unpinAll_eq]; cases d <;> rfl

theorem unpinOpt_chan (s : State) (i : Option (Fin 48)) (d : Chan) : (s.unpinOpt i).chan d = s.chan d := by
  unfold State.unpinOpt
  split <;> cases d <;> rfl

theorem unpinOpt_epoch (s : State) (i : Option (Fin 48)) : (s.unpinOpt i).epoch = s.epoch := by
  unfold State.unpinOpt
  split <;> rfl

/-! The moves. -/

/-- A report that neither is POWER_UP nor takes the place of a completion report. -/
def ReportBody.routine : ReportBody → Bool
  | .powerUp .. => false
  | .storeDone .. => false
  | .loadDone .. => false
  | _ => true

/-- A channel with the configuration and the HOST and LINE reasons of another. -/
structure Channel.SameSetup (x y : Channel) : Prop where
  cfg : y.cfg = x.cfg
  host : y.gate.hold.host = x.gate.hold.host
  line : y.gate.hold.line = x.gate.hold.line

/-- Chains of the moves of which the hop engine's operations are made. -/
inductive EngineMoves : State → State → Prop
  | refl (s : State) : EngineMoves s s
  | setChan (s : State) (c : Chan) (x : Channel) : (s.chan c).SameSetup x → EngineMoves s (s.setChan c x)
  | pin (s : State) (i : Fin 48) : EngineMoves s (s.pin i)
  | unpin (s : State) (i : Fin 48) : EngineMoves s (s.unpin i)
  | report (s : State) (r : ReportBody) : r.routine = true → EngineMoves s (s.report r)
  | settle (s : State) : EngineMoves s s.settleEpoch
  | trans {s t u : State} : EngineMoves s t → EngineMoves t u → EngineMoves s u

namespace EngineMoves

variable {s t : State}

theorem unpinOpt (h : EngineMoves s t) (i : Option (Fin 48)) : EngineMoves s (t.unpinOpt i) := by
  unfold State.unpinOpt
  split
  · exact h
  · exact h.trans (.unpin _ _)

theorem moveGate (h : EngineMoves s t) (c : Chan) (g : Gate)
    (h1 : g.hold.host = (t.chan c).gate.hold.host) (h2 : g.hold.line = (t.chan c).gate.hold.line) :
    EngineMoves s (t.moveGate c g) := by
  have hg : EngineMoves s (t.setGate c g) := h.trans (.setChan t c _ ⟨rfl, h1, h2⟩)
  unfold State.moveGate
  split
  · exact hg
  · exact hg.trans (.report _ _ rfl)

theorem applyHold (h : EngineMoves s t) (c : Chan) (x : HoldSet)
    (h1 : x.host = (t.chan c).gate.hold.host) (h2 : x.line = (t.chan c).gate.hold.line) :
    EngineMoves s (t.applyHold c x) := h.moveGate c _ h1 h2

theorem set (h : EngineMoves s t) (c : Chan) (x : Channel) (hx : (t.chan c).SameSetup x) :
    EngineMoves s (t.setChan c x) := h.trans (.setChan t c x hx)

theorem reports (h : EngineMoves s t) (r : ReportBody) (hr : r.routine = true) : EngineMoves s (t.report r) :=
  h.trans (.report t r hr)

theorem enter (h : EngineMoves s t) (c : Chan) (st : ChanState) : EngineMoves s (t.enter c st) := by
  unfold State.enter
  split
  · exact h
  · exact (h.set c { t.chan c with st := st } ⟨rfl, rfl, rfl⟩).reports _ rfl

theorem withdraw (h : EngineMoves s t) (c : Chan) : EngineMoves s (t.withdraw c) := h.set c _ ⟨rfl, rfl, rfl⟩

theorem settled (h : EngineMoves s t) : EngineMoves s t.settleEpoch := h.trans (.settle t)

theorem switchTo (h : EngineMoves s t) (c : Chan) (hop : HopEntry) : EngineMoves s (t.switchTo c hop) := by
  have hc : (t.unpinOpt (t.chan c).retiredSlot).chan c = t.chan c := unpinOpt_chan t _ c
  have h1 := ((h.unpinOpt (t.chan c).retiredSlot).set c
    ((t.chan c).switched hop (t.toneOf hop.slot) t.epoch.count) (by rw [hc]; exact ⟨rfl, rfl, rfl⟩))
  have h2 := (h1.applyHold c { (((t.unpinOpt (t.chan c).retiredSlot).setChan c ((t.chan c).switched hop
    (t.toneOf hop.slot) t.epoch.count)).chan c).gate.hold with noHop := false, blank := false } rfl rfl).enter
    c .dwell
  unfold State.switchTo
  dsimp only
  split
  · exact h2.reports _ rfl
  · exact h2

theorem hopStart (h : EngineMoves s t) (c : Chan) : EngineMoves s (t.hopStart c) := by
  unfold State.hopStart
  split
  · exact h
  · exact h.settled.switchTo c _

theorem pairStart (h : EngineMoves s t) : EngineMoves s t.pairStart := (h.hopStart .A).hopStart .B

theorem becomeReady (h : EngineMoves s t) (c : Chan) : EngineMoves s (t.becomeReady c) := by
  have h1 (m : Option Nat) : EngineMoves s (t.setChan c { t.chan c with ready := true, timer := m }) :=
    h.set c _ ⟨rfl, rfl, rfl⟩
  unfold State.becomeReady
  dsimp only
  repeat' split
  all_goals first | exact h | exact h1 _ | exact (h1 _).pairStart

theorem switchClosed (h : EngineMoves s t) (c : Chan) : EngineMoves s (t.switchClosed c) := by
  unfold State.switchClosed
  repeat' split
  · exact h
  · exact h.becomeReady c
  · exact h.hopStart c

theorem enterSwitching (h : EngineMoves s t) (c : Chan) : EngineMoves s (t.enterSwitching c) := by
  have h1 := (h.enter c .switching).applyHold c
    { ((t.enter c .switching).chan c).gate.hold with blank := true } rfl rfl
  unfold State.enterSwitching
  dsimp only
  split
  · exact h1.switchClosed c
  · exact h1

theorem headMet (h : EngineMoves s t) (c : Chan) (hop : HopEntry) : EngineMoves s (t.headMet c hop) := by
  unfold State.headMet
  split
  · exact h.enterSwitching c
  · exact h.hopStart c

theorem waitOnHead (h : EngineMoves s t) (c : Chan) : EngineMoves s (t.waitOnHead c) := by
  unfold State.waitOnHead
  split
  · exact h.enter c _
  · exact h

theorem evaluateHop (h : EngineMoves s t) (c : Chan) (hop : HopEntry) (k : Bool) :
    EngineMoves s (t.evaluateHop c hop k) := by
  unfold State.evaluateHop
  split
  · exact h.headMet c hop
  · exact h.waitOnHead c
  · dsimp only
    repeat' split
    · exact h.settled.waitOnHead c
    · exact h.settled.headMet c hop
    · exact (h.settled.reports _ rfl).headMet c hop
  · split
    · exact h.enterSwitching c
    · exact (h.waitOnHead c).becomeReady c

theorem evaluate (h : EngineMoves s t) (c : Chan) (k : Bool) : EngineMoves s (t.evaluate c k) := by
  have h1 : EngineMoves s (t.offerHead c) := h.set c _ ⟨rfl, rfl, rfl⟩
  unfold State.evaluate
  dsimp only
  split
  · exact h1
  · exact h1.evaluateHop c _ k

theorem endingComplete (h : EngineMoves s t) (c : Chan) (d : EndDest) :
    EngineMoves s (t.endingComplete c d) := by
  have hc : (t.unpinOpt (t.chan c).retiredSlot).chan c = t.chan c := unpinOpt_chan t _ c
  have h1 := ((h.unpinOpt (t.chan c).retiredSlot).set c (t.chan c).released
    (by rw [hc]; exact ⟨rfl, rfl, rfl⟩)).applyHold c { (((t.unpinOpt (t.chan c).retiredSlot).setChan c
      (t.chan c).released).chan c).gate.hold with noHop := true, ending := false } rfl rfl
  cases d with
  | idle => exact h1.enter c .idle
  | waiting =>
    unfold State.endingComplete
    dsimp only
    split
    · exact h1.enter c .waiting
    · exact (h1.enter c .waiting).evaluate c false

theorem enterEnding (h : EngineMoves s t) (c : Chan) (d : EndDest) : EngineMoves s (t.enterEnding c d) := by
  have h1 := ((h.set c { t.chan c with stopAtEnd := false, selfHead := false } ⟨rfl, rfl, rfl⟩).enter c
    (.ending d)).applyHold c { (((t.setChan c { t.chan c with stopAtEnd := false, selfHead := false }).enter c
      (.ending d)).chan c).gate.hold with ending := true, blank := false } rfl rfl
  unfold State.enterEnding
  dsimp only
  split
  · exact h1.endingComplete c d
  · exact h1

theorem underrun (h : EngineMoves s t) (c : Chan) : EngineMoves s (t.underrun c) := by
  have h1 := (h.set c { t.chan c with selfHead := false } ⟨rfl, rfl, rfl⟩).reports
    (.underrun c (t.chan c).cfg.policy) rfl
  unfold State.underrun
  dsimp only
  split
  · exact h1.enter c _
  · exact h1.enterEnding c _
  · exact h1.enterEnding c _

theorem dropBlank (h : EngineMoves s t) (c : Chan) : EngineMoves s (t.dropBlank c) := by
  unfold State.dropBlank
  split
  · exact h.applyHold c _ rfl rfl
  · exact h

theorem afterRemoval (h : EngineMoves s t) (c : Chan) (k : Bool) : EngineMoves s (t.afterRemoval c k) := by
  unfold State.afterRemoval
  split
  · exact h.underrun c
  · exact h.evaluate c k

theorem gateReportsClosed (h : EngineMoves s t) (c : Chan) : EngineMoves s (t.gateReportsClosed c) := by
  unfold State.gateReportsClosed
  split
  · exact h.switchClosed c
  · exact h.endingComplete c _
  · exact h

theorem expire (h : EngineMoves s t) (c : Chan) : EngineMoves s (t.expire c) := by
  unfold State.expire
  split
  · exact h.enterEnding c _
  · exact h.afterRemoval c _

theorem skipHead (h : EngineMoves s t) (c : Chan) : EngineMoves s (t.skipHead c) := by
  have hc : (t.unpinOpt ((t.chan c).queue.head?.map HopEntry.slot)).chan c = t.chan c := unpinOpt_chan t _ c
  unfold State.skipHead
  split
  · exact h
  · exact (h.unpinOpt _).set c _ (by rw [hc]; exact ⟨rfl, rfl, rfl⟩)

theorem pairExpire (h : EngineMoves s t) (c : Chan) : EngineMoves s (t.pairExpire c) := by
  have h1 := ((h.withdraw c).skipHead c).reports (.pairTimeout c ((t.chan c).offered.bind HopEntry.tag)) rfl
  unfold State.pairExpire
  dsimp only
  apply dropBlank
  repeat' split
  all_goals first
    | exact h1 | exact h1.enter c _ | exact h1.afterRemoval c _ | exact (h1.enter c _).afterRemoval c _
    | exact h1.evaluate c _ | exact (h1.enter c _).evaluate c _

theorem gateArrive (h : EngineMoves s t) (c : Chan) : EngineMoves s (t.gateArrive c) := by
  unfold State.gateArrive
  split
  · exact (h.moveGate c { (t.chan c).gate with st := .closed } rfl rfl).gateReportsClosed c
  · exact h.moveGate c { (t.chan c).gate with st := .opened } rfl rfl
  · exact h

theorem meetEdge (h : EngineMoves s t) (c : Chan) : EngineMoves s (t.meetEdge c) := by
  unfold State.meetEdge
  repeat' split
  · exact h.headMet c _
  · exact h
  · exact h

theorem takeEdge (h : EngineMoves s t) (c : Chan) : EngineMoves s (t.takeEdge c) :=
  (h.set c { t.chan c with edgeDue := false } ⟨rfl, rfl, rfl⟩).meetEdge c

theorem timeArrive (h : EngineMoves s t) (c : Chan) : EngineMoves s (t.timeArrive c) := by
  unfold State.timeArrive
  split
  · exact h.settled.headMet c _
  · exact h

theorem startChannel (h : EngineMoves s t) (c : Chan) : EngineMoves s (t.startChannel c) := by
  have h1 := (h.set c { t.chan c with stopAtEnd := false } ⟨rfl, rfl, rfl⟩).enter c .waiting
  unfold State.startChannel
  dsimp only
  split
  · exact h1
  · exact h1.evaluate c _

theorem stopChannel (h : EngineMoves s t) (c : Chan) (now : Bool) : EngineMoves s (t.stopChannel c now) := by
  unfold State.stopChannel
  repeat' split
  · exact (h.withdraw c).enter c _
  · exact h.enterEnding c _
  · exact h.set c _ ⟨rfl, rfl, rfl⟩
  · exact (h.withdraw c).enterEnding c _
  · exact (h.withdraw c).enterEnding c _
  · exact h.enter c _
  · exact h

theorem changeHold_after (c : Chan) (x : HoldSet) : EngineMoves (s.applyHold c x) (s.changeHold c x) ∨
    EngineMoves (s.applyHold c { x with blank := true }) (s.changeHold c x) := by
  unfold State.changeHold
  dsimp only
  repeat' split
  · exact .inr ((refl _).enter c _)
  · exact .inl ((refl _).gateReportsClosed c)
  · exact .inl (refl _)

theorem pinAll (h : EngineMoves s t) (es : List HopEntry) : EngineMoves s (t.pinAll es) := by
  induction es generalizing t with
  | nil => exact h
  | cons e es ih => exact ih (h.trans (.pin t e.slot))

theorem unpinAll (h : EngineMoves s t) (es : List HopEntry) : EngineMoves s (t.unpinAll es) := by
  induction es generalizing t with
  | nil => exact h
  | cons e es ih => exact ih (h.trans (.unpin t e.slot))

theorem appendEntries (h : EngineMoves s t) (c : Chan) (es : List HopEntry) :
    EngineMoves s (t.appendEntries c es) := by
  have h1 := (h.set c { t.chan c with queue := (t.chan c).queue ++ es } ⟨rfl, rfl, rfl⟩).pinAll es
  unfold State.appendEntries
  dsimp only
  split
  · exact h1.evaluate c false
  · exact h1

theorem emptyQueue (h : EngineMoves s t) (c : Chan) : EngineMoves s (t.emptyQueue c) := by
  exact (h.unpinAll _).set c _ (by rw [unpinAll_chan]; exact ⟨rfl, rfl, rfl⟩)

theorem dropCycleEdge (h : EngineMoves s t) (c : Chan) : EngineMoves s (t.dropCycleEdge c) :=
  h.set c _ ⟨rfl, rfl, rfl⟩

/-- HOP_FLUSH outside LOADING. -/
theorem flush (h : EngineMoves s t) (c : Chan) (hst : (t.chan c).st ≠ .loading) : EngineMoves s (t.flush c) := by
  have h1 := h.emptyQueue c
  unfold State.flush
  simp only [hst, if_false]
  repeat' split
  · exact h
  · exact h1.withdraw c
  · exact h1.evaluate c _
  · exact (h1.withdraw c |>.dropCycleEdge c).afterRemoval c _
  · exact h1
  · exact (((h1.withdraw c).enter c _).afterRemoval c _).dropBlank c
  · exact h1

/-! What such a chain leaves as it is. -/

/-- The store, the loader, the link, the GATE line, the ports and the commands that wait. -/
theorem outside (h : EngineMoves s t) : t.store = s.store ∧ t.loader = s.loader ∧ t.link = s.link ∧
    t.gateLine = s.gateLine ∧ t.gatePin = s.gatePin ∧ t.ports = s.ports ∧ t.pending = s.pending := by
  induction h with
  | refl s => simp
  | setChan s c x hx => simp
  | pin s i => simp [State.pin]
  | unpin s i => simp [State.unpin]
  | report s r hr => simp
  | settle s =>
    unfold State.settleEpoch State.syncRise State.epochEvent
    repeat' split
    all_goals simp
  | trans _ _ ih1 ih2 => simp [ih1, ih2]

theorem store (h : EngineMoves s t) : t.store = s.store := h.outside.1
theorem loader (h : EngineMoves s t) : t.loader = s.loader := h.outside.2.1
theorem link (h : EngineMoves s t) : t.link = s.link := h.outside.2.2.1
theorem gateLine (h : EngineMoves s t) : t.gateLine = s.gateLine := h.outside.2.2.2.1

/-- The configuration and the HOST and LINE reasons of each channel. -/
theorem setup (h : EngineMoves s t) (c : Chan) : (s.chan c).SameSetup (t.chan c) := by
  induction h with
  | refl s => exact ⟨rfl, rfl, rfl⟩
  | setChan s d x hx =>
    rw [State.setChan_chan]
    split
    · rename_i hd; exact hd ▸ hx
    · exact ⟨rfl, rfl, rfl⟩
  | pin s i => cases c <;> exact ⟨rfl, rfl, rfl⟩
  | unpin s i => cases c <;> exact ⟨rfl, rfl, rfl⟩
  | report s r hr => cases c <;> exact ⟨rfl, rfl, rfl⟩
  | settle s =>
    rw [(settleEpoch_kept s).2.2.2.2 c]
    exact ⟨rfl, rfl, rfl⟩
  | trans _ _ ih1 ih2 => exact ⟨ih2.cfg.trans ih1.cfg, ih2.host.trans ih1.host, ih2.line.trans ih1.line⟩

/-- The tone and the reserved mark of each slot. -/
theorem slot (h : EngineMoves s t) (i : Fin 48) :
    (t.slot i).tone = (s.slot i).tone ∧ (t.slot i).reserved = (s.slot i).reserved := by
  induction h with
  | refl s => simp
  | setChan s d x hx => simp
  | pin s j => rw [pin_slot]; split <;> simp [*]
  | unpin s j => rw [unpin_slot]; split <;> simp [*]
  | report s r hr => simp
  | settle s => simp [State.slot, (settleEpoch_kept s).1]
  | trans _ _ ih1 ih2 => simp [ih1, ih2]

end EngineMoves
end Sys2Proof.Machine
end

section
/-! What a report makes of the holders of the store engine, and what an event makes of the epoch count. -/

namespace Sys2Proof.Machine

/-- The completion report, the POWER_UPs that wait and whether the block is open are the same; a closed block
keeps the length of its queue. -/
structure ReportBlock.SameHolders (b b' : ReportBlock) : Prop where
  isOpen : b'.isOpen = b.isOpen
  completion : b'.completion = b.completion
  powerUps : b'.queue.countP isPowerUp = b.queue.countP isPowerUp
  closed : b.isOpen = false → b'.queue.length = b.queue.length

theorem ReportBlock.SameHolders.rfl' (b : ReportBlock) : b.SameHolders b := ⟨rfl, rfl, rfl, fun _ => rfl⟩

theorem ReportBlock.SameHolders.trans {a b c : ReportBlock} (h1 : a.SameHolders b) (h2 : b.SameHolders c) :
    a.SameHolders c :=
  ⟨h2.isOpen.trans h1.isOpen, h2.completion.trans h1.completion, h2.powerUps.trans h1.powerUps,
    fun h => (h2.closed (h1.isOpen.trans h)).trans (h1.closed h)⟩

/-- A change that keeps what is POWER_UP keeps their number. -/
theorem countP_updateFirst (r : ReportBody) (f : Report → Report) (p : Report → Bool) (qs : List Report)
    (h : ∀ q ∈ qs, sameKey q.body r = true → p (f q) = p q) : (updateFirst r f qs).countP p = qs.countP p := by
  induction qs with
  | nil => rfl
  | cons q rest ih =>
    simp only [updateFirst]
    split
    · rename_i hk
      simp [List.countP_cons, h q (by simp) hk]
    · simp [List.countP_cons, ih fun q hq => h q (by simp [hq])]

/-- What shares its key with a routine report is no POWER_UP. -/
theorem isPowerUp_of_sameKey {q : Report} {r : ReportBody} (hr : r.routine = true)
    (h : sameKey q.body r = true) : isPowerUp q = false := by
  unfold isPowerUp
  split
  · rename_i hq
    cases r <;> simp [sameKey, hq, reportIndex, ReportBody.routine] at h hr
  · rfl

theorem isPowerUp_routine {r : ReportBody} (hr : r.routine = true) (n : Nat) : isPowerUp ⟨r, n⟩ = false := by
  cases r <;> first | rfl | simp [ReportBody.routine] at hr

theorem reportClass_routine {r : ReportBody} (hr : r.routine = true) : reportClass r ≠ .completion := by
  cases r <;> simp [ReportBody.routine] at hr <;> simp [reportClass]

theorem join_sameHolders {b : ReportBlock} {r : ReportBody} (hr : r.routine = true) (ho : b.isOpen = true) :
    b.SameHolders (b.join r) := by
  unfold ReportBlock.join
  split
  · exact ⟨rfl, rfl, by simp [isPowerUp_routine hr], fun h => by simp [ho] at h⟩
  · exact ⟨rfl, rfl, rfl, fun _ => rfl⟩

/-- A routine report changes no holder of the store engine. -/
theorem make_sameHolders (b : ReportBlock) {r : ReportBody} (hr : r.routine = true) :
    b.SameHolders (b.make r) := by
  have hn : ∀ b' : ReportBlock, b'.SameHolders (b'.note b r) := fun b' => by
    unfold ReportBlock.note
    split <;> exact ⟨rfl, rfl, rfl, fun _ => rfl⟩
  refine .trans ?_ (hn _)
  unfold ReportBlock.accept
  by_cases ho : b.isOpen = true
  case neg => simpa [ho] using ReportBlock.SameHolders.rfl' b
  case pos =>
    have hu : ∀ f : Report → Report, (∀ q, sameKey q.body r = true → isPowerUp (f q) = false) →
        b.SameHolders { b with queue := updateFirst r f b.queue } := fun f hf =>
      ⟨rfl, rfl, countP_updateFirst r f _ _ fun q _ hq => by rw [hf q hq, isPowerUp_of_sameKey hr hq],
        fun h => by simp [ho] at h⟩
    rw [if_neg (by simp [ho])]
    split
    · exact .rfl' b
    · split
      · rename_i hc; exact absurd hc (reportClass_routine hr)
      · exact join_sameHolders hr ho
      · split
        · exact hu _ fun q hq => isPowerUp_of_sameKey (q := q.repeated) hr hq
        · exact join_sameHolders hr ho
      · split
        · exact hu _ fun q _ => isPowerUp_routine hr q.repeats
        · exact join_sameHolders hr ho

/-- Another count leaves the kind of every report. -/
theorem recountFrom_sameHolders (count : BitVec 48) (n : Nat) (qs : List Report) :
    (recountFrom count n qs).countP isPowerUp = qs.countP isPowerUp ∧
      (recountFrom count n qs).length = qs.length := by
  induction qs generalizing n with
  | nil => simp [recountFrom]
  | cons q rest ih =>
    have hq : isPowerUp (q.recounted count) = isPowerUp q := by
      unfold Report.recounted
      split
      · rename_i h; simp [isPowerUp, h]
      · rfl
    cases n with
    | zero => simp [recountFrom, List.countP_cons, hq, ih]
    | succ n =>
      simp only [recountFrom]
      split <;> simp [List.countP_cons, ih]

/-- An epoch event changes no holder of the store engine. -/
theorem epochEvent_sameHolders (s : State) (cause : EpochCause) :
    s.reports.SameHolders (s.epochEvent cause).reports := by
  rw [(epochEvent_kept s cause).2.2.2.2.2.1]
  have hr : s.reports.SameHolders (s.reports.recount 0#48) :=
    ⟨rfl, rfl, (recountFrom_sameHolders _ _ _).1, fun _ => (recountFrom_sameHolders _ _ _).2⟩
  exact hr.trans (make_sameHolders _ rfl)

theorem syncRise_sameHolders (s : State) : s.reports.SameHolders s.syncRise.reports := by
  unfold State.syncRise
  split
  · exact .rfl' _
  · exact epochEvent_sameHolders (State.setArm { s with epoch := { s.epoch with syncDue := false } } _) _
  · exact epochEvent_sameHolders { s with epoch := { s.epoch with syncDue := false } } _

theorem EngineMoves.holders {s t : State} (h : EngineMoves s t) : s.reports.SameHolders t.reports := by
  induction h with
  | refl s => exact .rfl' _
  | setChan s c x hx => rw [State.setChan_reports]; exact .rfl' _
  | pin s i => exact .rfl' _
  | unpin s i => exact .rfl' _
  | report s r hr => exact make_sameHolders _ hr
  | settle s =>
    unfold State.settleEpoch
    split
    · exact syncRise_sameHolders s
    · exact .rfl' _
  | trans _ _ ih1 ih2 => exact ih1.trans ih2

/-! The epoch count. -/

/-- The count stays and no epoch event becomes due, or an epoch event that is due makes it 0 (R14, R18). -/
def Epoch.Settles (e e' : Epoch) : Prop :=
  (e'.count = e.count ∧ (e'.eventDue = true → e.eventDue = true)) ∨
    (e.eventDue = true ∧ e'.count = 0#48 ∧ e'.eventDue = false)

theorem Epoch.Settles.rfl' (e : Epoch) : e.Settles e := .inl ⟨rfl, id⟩

theorem Epoch.Settles.of_eq {e e' : Epoch} (h : e' = e) : e.Settles e' := h ▸ .rfl' e

theorem Epoch.Settles.trans {a b c : Epoch} (h1 : a.Settles b) (h2 : b.Settles c) : a.Settles c := by
  rcases h1 with ⟨h1, h1'⟩ | ⟨h1, h1', h1''⟩ <;> rcases h2 with ⟨h2, h2'⟩ | ⟨h2, h2', h2''⟩
  · exact .inl ⟨h2.trans h1, fun h => h1' (h2' h)⟩
  · exact .inr ⟨h1' h2, h2', h2''⟩
  · refine .inr ⟨h1, h2.trans h1', ?_⟩
    cases hc : c.eventDue with
    | false => rfl
    | true => exact absurd (h2' hc) (by simp [h1''])
  · simp [h1''] at h2

/-- A SYNC edge that is due settles the epoch, by arm state (R18). -/
theorem syncRise_settles {s : State} (h : s.epoch.syncDue = true) : s.epoch.Settles s.syncRise.epoch := by
  unfold State.syncRise
  split
  · exact .inl ⟨rfl, fun h => by simp [Epoch.eventDue] at h⟩
  · rename_i ha
    refine .inr ⟨by simp [Epoch.eventDue, h, ha], ?_⟩
    simp [(epochEvent_kept _ _).2.2.2.2.1, State.setArm, Epoch.eventDue]
  · rename_i ha
    refine .inr ⟨by simp [Epoch.eventDue, h, ha], ?_⟩
    simp [(epochEvent_kept _ _).2.2.2.2.1, Epoch.eventDue]

theorem EngineMoves.epoch {s t : State} (h : EngineMoves s t) : s.epoch.Settles t.epoch := by
  induction h with
  | refl s => exact .rfl' _
  | setChan s c x hx => exact .of_eq (by simp)
  | pin s i => exact .rfl' _
  | unpin s i => exact .rfl' _
  | report s r hr => exact .rfl' _
  | settle s =>
    unfold State.settleEpoch
    split
    · rename_i h
      exact syncRise_settles (by simp [Epoch.eventDue] at h; exact h.1)
    · exact .rfl' _
  | trans _ _ ih1 ih2 => exact ih1.trans ih2

end Sys2Proof.Machine
end

section
/-! The laws of the channels and the pins through the moves of Safety.lean: what each relation, from `Started` to
`BlankDropped`, keeps. -/

namespace Sys2Proof.Machine

/-! The laws of one channel. -/

/-- The laws of `Channel.lawful`, one by one. `loose` lets BLANK outstay SWITCHING, as it does within an event that
takes a channel out of SWITCHING (R69, R83). -/
structure Channel.Sound (loose : Bool) (ch : Channel) : Prop where
  gate : ch.gate.lawful = true
  ramp : ch.cfg.ramp = 0 → ch.gate.st = .opened ∨ ch.gate.st = .closed
  noHop : ch.gate.hold.noHop = ch.cur.isNone
  shut : ch.cur = none → ch.gate.st = .closed
  ending : ch.gate.hold.ending = ch.st.isEnding
  blank : ch.st = .switching → ch.gate.hold.blank = true
  blankOnly : loose = false → ch.gate.hold.blank = true → ch.st = .switching
  hop : ch.cur.isSome = ch.st.holdsHop
  dwell : ch.st = .dwell ∨ ch.st.isEnding = true ∨ ch.dwell = 0
  stop : ch.stopAtEnd = true → ch.st = .dwell
  room : ch.queue.length + (ch.cfg.cycle && ch.cur.isSome).toNat ≤ 64
  self : ch.selfHead = true → ch.cfg.cycle = true ∧ (ch.st = .overstay ∨ ch.st = .switching)
  ready : ch.ready = true → (ch.st = .waiting ∨ ch.st = .overstay ∨ ch.st = .switching) ∧
    ch.offered.map HopEntry.trigger = some .paired
  timer : ch.timer.isSome = true → ch.ready = true

theorem Channel.lawful_iff (ch : Channel) : ch.lawful = true ↔ ch.Sound false := by
  constructor
  · intro h
    simp only [Channel.lawful, Channel.reasonsLawful, Channel.engineLawful, Channel.queueLawful,
      Channel.pairLawful, Channel.rampLawful, Bool.and_eq_true, Bool.or_eq_true, beq_iff_eq, bne_iff_ne,
      Config.queueCapacity, Bool.not_eq_true', Option.isNone_iff_eq_none] at h
    obtain ⟨⟨⟨⟨⟨hg, ⟨⟨hn, hb⟩, he⟩, hs⟩, ⟨hh, hd⟩, hst⟩, hr, hsf⟩, hrd, ht⟩, hrp⟩ := h
    exact {
      gate := hg, noHop := hn, ending := he, hop := hh, room := of_decide_eq_true hr
      ramp := fun h0 => by rcases hrp with (h | h) | h <;> simp_all
      shut := fun h0 => by simpa [h0] using hs
      blank := fun h0 => by rw [hb]; simp [h0]
      blankOnly := fun _ h0 => by rw [h0] at hb; simpa using hb.symm
      dwell := by rcases hd with (h | h) | h <;> simp [h]
      stop := fun h0 => by simpa [h0] using hst
      self := fun h0 => by simpa [h0] using hsf
      ready := fun h0 => by
        rcases hrd with h | ⟨h, h'⟩
        · simp [h0] at h
        · exact ⟨by rcases h with (h | h) | h <;> simp [h], h'⟩
      timer := fun h0 => by rcases ht with h | h <;> simp_all }
  · intro h
    simp only [Channel.lawful, Channel.reasonsLawful, Channel.engineLawful, Channel.queueLawful,
      Channel.pairLawful, Channel.rampLawful, Bool.and_eq_true, Bool.or_eq_true, beq_iff_eq, bne_iff_ne,
      Config.queueCapacity, Bool.not_eq_true', Option.isNone_iff_eq_none]
    refine ⟨⟨⟨⟨⟨h.gate, ⟨⟨h.noHop, ?_⟩, h.ending⟩, ?_⟩, ⟨h.hop, ?_⟩, ?_⟩, decide_eq_true h.room, ?_⟩, ?_, ?_⟩, ?_⟩
    · by_cases hs : ch.st = .switching
      · simp [hs, h.blank hs]
      · cases hb : ch.gate.hold.blank with
        | false => simp [hs]
        | true => exact absurd (h.blankOnly rfl hb) hs
    · cases hc : ch.cur <;> simp [h.shut, hc]
    · rcases h.dwell with h | h | h <;> simp [h]
    · cases hs : ch.stopAtEnd <;> simp [h.stop, hs]
    · cases hs : ch.selfHead <;> simp [h.self, hs]
    · cases hs : ch.ready with
      | false => simp
      | true => obtain ⟨h1, h2⟩ := h.ready hs; exact .inr ⟨by rcases h1 with h | h | h <;> simp [h], h2⟩
    · cases ht : ch.timer <;> simp [h.timer, ht]
    · by_cases h0 : ch.cfg.ramp = 0
      · rcases h.ramp h0 with h | h <;> simp [h]
      · simp [h0]

/-- A channel that keeps every law keeps them with BLANK let loose. -/
theorem Channel.Sound.loosen {ch : Channel} (h : ch.Sound false) (l : Bool) : ch.Sound l :=
  { h with blankOnly := fun _ => h.blankOnly rfl }

/-- The laws do not read the accumulator. -/
theorem Channel.Sound.acc {l : Bool} {ch : Channel} (h : ch.Sound l) (a : BitVec 32) :
    ({ ch with acc := a } : Channel).Sound l := { h with }

/-- A channel with an offer offers it with some entries behind it. -/
theorem Channel.offers_of_offered {ch : Channel} {hop : HopEntry} (h : ch.offered = some hop) :
    ∃ rest, ch.offers hop rest := by
  unfold Channel.offered at h
  cases hs : ch.selfHead with
  | true => exact ⟨ch.queue, .inr ⟨hs, by simpa [hs] using h, rfl⟩⟩
  | false =>
    simp only [hs, Bool.false_eq_true, if_false, List.head?_eq_some_iff] at h
    obtain ⟨rest, hq⟩ := h
    exact ⟨rest, .inl ⟨hs, hq⟩⟩

/-- A ready channel offers a PAIRED head. -/
theorem Channel.Sound.ready_offers {l : Bool} {ch : Channel} (h : ch.Sound l) (hr : ch.ready = true) :
    ∃ hop rest, ch.offers hop rest ∧ hop.trigger = .paired := by
  obtain ⟨-, hp⟩ := h.ready hr
  obtain ⟨hop, ho, ht⟩ := Option.map_eq_some_iff.mp hp
  obtain ⟨rest, hr⟩ := offers_of_offered ho
  exact ⟨hop, rest, hr, ht⟩

/-! Gates. -/

/-- A gate without a ramp does not begin to move. -/
theorem gateLeft_still {ramp : Nat} {g g' : Gate} {h : HoldSet} (hg : GateLeft ramp g h g')
    (hr : ramp = 0 → g.st = .opened ∨ g.st = .closed) : ramp = 0 → g'.st = .opened ∨ g'.st = .closed := by
  intro h0
  obtain ⟨-, -, h3, h4, h5⟩ := hg
  cases he : h.isEmpty <;> cases hh : g.hold.isEmpty
  · rw [(h3 (by rw [he, hh])).1]; exact hr h0
  · rw [(h4 hh he).1]; simp [h0]
  · rw [(h5 hh he).1]; simp [h0]
  · rw [(h3 (by rw [he, hh])).1]; exact hr h0

/-- A CLOSED gate stays so while a reason is left. -/
theorem gateLeft_shut {ramp : Nat} {g g' : Gate} {h : HoldSet} (hg : GateLeft ramp g h g')
    (hl : g.lawful = true) (hs : g.st = .closed) (he : h.isEmpty = false) : g'.st = .closed := by
  have hh : g.hold.isEmpty = false := by simp [Gate.lawful, hs] at hl; exact hl.1
  rw [(hg.2.2.1 (by rw [he, hh])).1, hs]

/-! The pins of a channel. -/

/-- The pins of the entries of a list on a slot. -/
def entryPins (es : List HopEntry) (i : Fin 48) : Nat := es.countP fun e => e.slot == i

@[simp] theorem entryPins_nil (i : Fin 48) : entryPins [] i = 0 := rfl

@[simp] theorem entryPins_append (es fs : List HopEntry) (i : Fin 48) :
    entryPins (es ++ fs) i = entryPins es i + entryPins fs i := List.countP_append

theorem entryPins_cons (e : HopEntry) (es : List HopEntry) (i : Fin 48) :
    entryPins (e :: es) i = entryPins [e] i + entryPins es i := entryPins_append [e] es i

theorem entryPins_single (e : HopEntry) (i : Fin 48) : entryPins [e] i = if e.slot = i then 1 else 0 := by
  by_cases h : e.slot = i <;> simp [entryPins, h]

/-- A channel pins the slots of its queue and of its current hop (R5). -/
theorem Channel.pinsOn_eq (ch : Channel) (i : Fin 48) :
    ch.pinsOn i = entryPins ch.queue i + entryPins ch.cur.toList i := by
  unfold Channel.pinsOn
  cases ch.cur with
  | none => rfl
  | some e => by_cases h : e.slot = i <;> simp [entryPins, h]

/-- The pins that a channel gives back with its current hop: outside cycle mode the one on its slot (R46, R64). -/
theorem retired_pins (ch : Channel) (i : Fin 48) :
    (if ch.cfg.cycle = true then 0 else entryPins ch.cur.toList i) =
      if ch.cfg.cycle = false ∧ ch.cur.map HopEntry.slot = some i then 1 else 0 := by
  cases ch.cfg.cycle <;> cases ch.cur <;> simp [entryPins_single]

/-- A head offered with the entries behind it holds the pins of the queue and of the current hop. -/
theorem offers_pins {ch : Channel} {hop : HopEntry} {rest : List HopEntry} (ho : ch.offers hop rest)
    (hc : ch.selfHead = true → ch.cfg.cycle = true) (i : Fin 48) :
    entryPins (if ch.selfHead = false ∧ ch.cfg.cycle = true then rest ++ ch.cur.toList else rest) i +
      entryPins [hop] i + (if ch.cfg.cycle = true then 0 else entryPins ch.cur.toList i) = ch.pinsOn i := by
  rw [Channel.pinsOn_eq]
  rcases ho with ⟨h1, h2⟩ | ⟨h1, h2, h3⟩
  · rw [h2, entryPins_cons hop rest]
    cases ch.cfg.cycle <;> simp [h1] <;> omega
  · simp [h1, h2, h3, hc h1]

/-- The queue's law of room past a switch (R24, R29, R40). -/
theorem offers_room {ch : Channel} {hop : HopEntry} {rest : List HopEntry} (ho : ch.offers hop rest)
    (hr : ch.queue.length + (ch.cfg.cycle && ch.cur.isSome).toNat ≤ 64) :
    (if ch.selfHead = false ∧ ch.cfg.cycle = true then rest ++ ch.cur.toList else rest).length +
      ch.cfg.cycle.toNat ≤ 64 := by
  rcases ho with ⟨h1, h2⟩ | ⟨h1, h2, h3⟩
  · rw [h2] at hr
    cases hc : ch.cfg.cycle <;> cases hh : ch.cur <;> simp [h1, hc, hh] at hr ⊢ <;> omega
  · rw [h3] at hr
    simpa [h1, h2] using hr

end Sys2Proof.Machine
end

section
/-! The laws of everything the hop engine touches, through the moves of Safety.lean. -/

namespace Sys2Proof.Machine

/-- The pin law of every slot (R5). -/
def State.PinsSound (s : State) : Prop := ∀ i,
  (s.slot i).pins = s.chA.pinsOn i + s.chB.pinsOn i ∧ (0 < (s.slot i).pins → (s.slot i).tone.isSome = true)

theorem pinsOn_sum (s : State) (c : Chan) (i : Fin 48) :
    s.chA.pinsOn i + s.chB.pinsOn i = (s.chan c).pinsOn i + (s.chan (chanOther c)).pinsOn i := by
  cases c
  · rfl
  · exact Nat.add_comm _ _

/-- The laws of what stands beside channel `c`: the other channel, the pins, and which channel is LOADING, namely
`k`, which is not `c`. `l` tells where BLANK is let loose. -/
structure Beside (s : State) (c : Chan) (l : Chan → Bool) (k : Option Chan) : Prop where
  other : (s.chan (chanOther c)).Sound (l (chanOther c))
  pins : s.PinsSound
  load : (s.chan (chanOther c)).st = .loading ↔ k = some (chanOther c)
  free : k ≠ some c

/-- The laws of both channels, of the pins and of which channel is LOADING. -/
structure EngineSound (s : State) (l : Chan → Bool) (k : Option Chan) : Prop where
  chan : ∀ d, (s.chan d).Sound (l d)
  one : (s.chan .A).ready = true → (s.chan .B).ready = false
  pins : s.PinsSound
  load : ∀ d, (s.chan d).st = .loading ↔ k = some d

variable {s t b w : State} {c : Chan} {hop : HopEntry} {rest : List HopEntry} {l : Chan → Bool}
  {k : Option Chan}

theorem EngineSound.beside (h : EngineSound s l k) (hc : (s.chan c).st ≠ .loading) : Beside s c l k :=
  ⟨h.chan _, h.pins, h.load _, fun hk => hc ((h.load c).mpr hk)⟩

theorem EngineSound.notBoth (h : EngineSound s l k) (hc : (s.chan c).ready = true) :
    (s.chan (chanOther c)).ready = false := by
  cases c with
  | A => exact h.one hc
  | B =>
    cases hA : s.chA.ready with
    | false => exact hA
    | true => exact absurd (h.one hA) (by simpa using hc)

/-- A channel that keeps its laws beside what keeps them. -/
theorem Beside.engine (h : Beside s c l k) (hc : (s.chan c).Sound (l c)) (hl : (s.chan c).st ≠ .loading)
    (h1 : (s.chan c).ready = true → (s.chan (chanOther c)).ready = false) : EngineSound s l k := by
  have hl' : (s.chan c).st = .loading ↔ k = some c := ⟨fun h => absurd h hl, fun hk => absurd hk h.free⟩
  cases c with
  | A =>
    refine ⟨fun d => ?_, h1, h.pins, fun d => ?_⟩ <;> cases d
    exacts [hc, h.other, hl', h.load]
  | B =>
    refine ⟨fun d => ?_, fun hA => ?_, h.pins, fun d => ?_⟩
    · cases d
      exacts [h.other, hc]
    · cases hB : (s.chan .B).ready with
      | false => rfl
      | true => exact absurd (h1 hB) (by simpa using hA)
    · cases d
      exacts [h.load, hl']

/-- One channel moves on and keeps its laws; the other stays, LOADING or not. -/
theorem EngineSound.rekey {u : State} {l' : Chan → Bool} {k' : Option Chan} (h : EngineSound s l k) (c : Chan)
    (hp : u.PinsSound) (hc : (u.chan c).Sound (l' c)) (ho : u.chan (chanOther c) = s.chan (chanOther c))
    (hs : (s.chan (chanOther c)).Sound (l' (chanOther c)))
    (hk : k = some (chanOther c) ↔ k' = some (chanOther c))
    (hl : (u.chan c).st = .loading ↔ k' = some c)
    (h1 : (u.chan c).ready = true → (s.chan (chanOther c)).ready = false) : EngineSound u l' k' := by
  have hlo := (h.load (chanOther c)).trans hk
  cases c with
  | A =>
    have hB : u.chan .B = s.chan .B := ho
    refine ⟨fun d => ?_, fun h0 => hB ▸ h1 h0, hp, fun d => ?_⟩ <;> cases d
    exacts [hc, hB ▸ hs, hl, hB ▸ hlo]
  | B =>
    have hA : u.chan .A = s.chan .A := ho
    refine ⟨fun d => ?_, fun h0 => ?_, hp, fun d => ?_⟩
    · cases d
      exacts [hA ▸ hs, hc]
    · cases hB : (u.chan .B).ready with
      | false => rfl
      | true => exact absurd (h1 hB) (by rw [hA] at h0; simpa using h0)
    · cases d
      exacts [hA ▸ hlo, hl]

/-- One channel moves on and keeps its laws; the other stays. -/
theorem EngineSound.update {u : State} {l' : Chan → Bool} (h : EngineSound s l k) (c : Chan)
    (hp : u.PinsSound) (hc : (u.chan c).Sound (l' c)) (ho : u.chan (chanOther c) = s.chan (chanOther c))
    (hs : (s.chan (chanOther c)).Sound (l' (chanOther c))) (hl : (u.chan c).st = .loading ↔ k = some c)
    (h1 : (u.chan c).ready = true → (s.chan (chanOther c)).ready = false) : EngineSound u l' k :=
  h.rekey c hp hc ho hs Iff.rfl hl h1

/-- Pins that stay the same on every slot. -/
theorem State.PinsSound.setChan (h : s.PinsSound) (x : Channel) (hq : ∀ i, x.pinsOn i = (s.chan c).pinsOn i) :
    (s.setChan c x).PinsSound := fun i => by
  obtain ⟨h1, h2⟩ := h i
  rw [pinsOn_sum _ c] at h1 ⊢
  rw [State.setChan_slot, State.setChan_chan_same, State.setChan_chan_other, hq]
  exact ⟨h1, h2⟩

/-- Two states alike in the slots, and in the channels but for their accumulators. -/
structure SameEngine (s t : State) : Prop where
  slots : t.slots = s.slots
  chan : ∀ d, t.chan d = { s.chan d with acc := (t.chan d).acc }

theorem SameEngine.of_eq (h1 : t.slots = s.slots) (h2 : ∀ d, t.chan d = s.chan d) : SameEngine s t :=
  ⟨h1, fun d => by rw [h2 d]⟩

theorem sameEngine_settle (s : State) : SameEngine s s.settleEpoch :=
  ⟨(settleEpoch_kept s).1, (settleEpoch_kept s).2.2.2.2⟩

theorem sameEngine_report (s : State) (r : ReportBody) : SameEngine s (s.report r) :=
  .of_eq rfl fun d => by simp

theorem SameEngine.pins (h : SameEngine s t) (hp : s.PinsSound) : t.PinsSound := fun i => by
  have hA : t.chA.pinsOn i = s.chA.pinsOn i := by
    rw [Channel.pinsOn_eq, Channel.pinsOn_eq, show t.chA = _ from h.chan .A]; rfl
  have hB : t.chB.pinsOn i = s.chB.pinsOn i := by
    rw [Channel.pinsOn_eq, Channel.pinsOn_eq, show t.chB = _ from h.chan .B]; rfl
  rw [hA, hB, State.slot, h.slots]
  exact hp i

theorem SameEngine.beside (h : SameEngine s t) (hb : Beside s c l k) : Beside t c l k := by
  refine ⟨?_, h.pins hb.pins, ?_, hb.free⟩
  · rw [h.chan]; exact hb.other.acc _
  · rw [h.chan]; exact hb.load

theorem SameEngine.engine (h : SameEngine s t) (hs : EngineSound s l k) : EngineSound t l k := by
  refine ⟨fun d => ?_, ?_, h.pins hs.pins, fun d => ?_⟩
  · rw [h.chan]; exact (hs.chan d).acc _
  · rw [h.chan .A, h.chan .B]; exact hs.one
  · rw [h.chan]; exact hs.load d

/-! The hop start. -/

/-- What a hop start asks of its channel. -/
structure Channel.Startable (ch : Channel) : Prop where
  gate : ch.gate.lawful = true
  ramp : ch.cfg.ramp = 0 → ch.gate.st = .opened ∨ ch.gate.st = .closed
  ending : ch.gate.hold.ending = false
  room : ch.queue.length + (ch.cfg.cycle && ch.cur.isSome).toNat ≤ 64
  self : ch.selfHead = true → ch.cfg.cycle = true

theorem Channel.Startable.acc {ch : Channel} (h : ch.Startable) (a : BitVec 32) :
    ({ ch with acc := a } : Channel).Startable := { h with }

theorem Channel.Sound.startable {ch : Channel} {o : Bool} (h : ch.Sound o) (he : ch.st.isEnding = false) :
    ch.Startable :=
  { gate := h.gate, ramp := h.ramp, ending := by rw [h.ending, he], room := h.room
    self := fun hs => (h.self hs).1 }

/-- A hop start leaves its channel lawful (R46). -/
theorem started_sound (h : Started s t c hop rest) (hs : (s.chan c).Startable)
    (ho : (s.chan c).offers hop rest) : (t.chan c).Sound false := by
  obtain ⟨hst, hcur, hq, -, hrd, htm, hself, -, hcfg, -, -, -, -, hhold, hgate, -⟩ := h
  have hg := hgate hs.gate
  have hroom := offers_room ho hs.room
  exact {
    gate := gateLeft_lawful hs.gate hg
    ramp := by rw [hcfg]; exact gateLeft_still hg hs.ramp
    noHop := by rw [hhold, hcur]; rfl
    shut := fun h0 => by simp [hcur] at h0
    ending := by rw [hhold, hst]; exact hs.ending
    blank := fun h0 => by simp [hst] at h0
    blankOnly := fun _ h0 => by rw [hhold] at h0; simp at h0
    hop := by rw [hcur, hst]; rfl
    dwell := .inl hst
    stop := fun _ => hst
    room := by rw [hcfg, hcur, hq]; simpa using hroom
    self := fun h0 => by simp [hself] at h0
    ready := fun h0 => by simp [hrd] at h0
    timer := fun h0 => by simp [htm] at h0 }

/-- A hop start keeps the pins (R5, R46). -/
theorem started_pins (h : Started s t c hop rest) (hc : (s.chan c).selfHead = true → (s.chan c).cfg.cycle = true)
    (ho : (s.chan c).offers hop rest) (hp : s.PinsSound) : t.PinsSound := fun i => by
  obtain ⟨-, hcur, hq, -, -, -, -, -, -, -, -, -, -, -, -, hother, hslot, -⟩ := h
  obtain ⟨h1, h2⟩ := hp i
  have hold := offers_pins ho hc i
  have hnew := Channel.pinsOn_eq (t.chan c) i
  rw [hcur, hq] at hnew
  simp only [Option.toList_some] at hnew
  rw [retired_pins] at hold
  rw [pinsOn_sum s c] at h1
  rw [pinsOn_sum t c, hother, hslot]
  split
  · rename_i hr
    rw [if_pos hr] at hold
    exact ⟨by simp only; omega, fun h0 => h2 (by simp only at h0; omega)⟩
  · rename_i hr
    rw [if_neg hr] at hold
    exact ⟨by omega, h2⟩

theorem started_beside (h : Started s t c hop rest) (hs : (s.chan c).Startable)
    (ho : (s.chan c).offers hop rest) (hb : Beside s c l k) : Beside t c l k := by
  have hp := started_pins h hs.self ho hb.pins
  obtain ⟨-, -, -, -, -, -, -, -, -, -, -, -, -, -, -, hother, -⟩ := h
  exact ⟨by rw [hother]; exact hb.other, hp, by rw [hother]; exact hb.load, hb.free⟩

/-- A hop start on a settled epoch keeps every law (R46). -/
theorem started_engine (h : Started s.settleEpoch t c hop rest) (hs : (s.chan c).Startable)
    (ho : (s.chan c).offers hop rest) (hb : Beside s c l k) : EngineSound t l k := by
  have hsame := sameEngine_settle s
  have hs' : (s.settleEpoch.chan c).Startable := by rw [hsame.chan]; exact hs.acc _
  have ho' : (s.settleEpoch.chan c).offers hop rest := by
    rw [hsame.chan]; exact offers_congr ho rfl rfl rfl
  have hst : (t.chan c).st = .dwell := h.1
  have hrd : (t.chan c).ready = false := h.2.2.2.2.1
  exact (started_beside h hs' ho' (hsame.beside hb)).engine ((started_sound h hs' ho').loosen _) (by simp [hst])
    (by simp [hrd])

end Sys2Proof.Machine
end

section
/-! The evaluation of a head, and what follows from it, keeps the laws. -/

namespace Sys2Proof.Machine

variable {s t b w : State} {c : Chan} {hop : HopEntry} {rest : List HopEntry} {l : Chan → Bool}
  {k : Option Chan}

/-! Readiness and the pair start. -/

/-- A channel that is ready, with its pair timer running or not. -/
def Channel.readied (ch : Channel) (timer : Option Nat) : Channel := { ch with ready := true, timer := timer }

@[simp] theorem Channel.readied_st (ch : Channel) (m : Option Nat) : (ch.readied m).st = ch.st := rfl

theorem Channel.Sound.readied {o : Bool} {ch : Channel} (h : ch.Sound o)
    (hst : ch.st = .waiting ∨ ch.st = .overstay ∨ ch.st = .switching) (ho : ch.offers hop rest)
    (hp : hop.trigger = .paired) (timer : Option Nat) : (ch.readied timer).Sound o :=
  { h with
    ready := fun _ => ⟨hst, by
      have : (ch.readied timer).offered = some hop := offered_of_offers ho
      rw [this]; simp [hp]⟩
    timer := fun _ => rfl }

theorem ChanState.waits_not {st : ChanState} (h : st = .waiting ∨ st = .overstay ∨ st = .switching) :
    st.isEnding = false ∧ st ≠ .loading := by
  rcases h with h | h | h <;> simp [h, ChanState.isEnding]

/-- A channel that becomes `x`, which pins the same slots, keeps what stands beside it lawful. -/
theorem Beside.setChan (h : Beside s c l k) (x : Channel) (hq : ∀ i, x.pinsOn i = (s.chan c).pinsOn i) :
    Beside (s.setChan c x) c l k := by
  exact ⟨by simpa using h.other, h.pins.setChan x hq, by simpa using h.load, h.free⟩

/-- The pair start keeps the laws: each ready channel starts the head it offers (R78). -/
theorem pairStart_engine {v u : State} {hopA hopB : HopEntry} {restA restB : List HopEntry}
    (hc : ∀ d, (v.chan d).Sound (l d)) (hr : ∀ d, (v.chan d).ready = true) (hb : Beside v .A l k)
    (hA : v.chA.offers hopA restA) (hB : v.chB.offers hopB restB)
    (h1 : Started v.settleEpoch u .A hopA restA) (h2 : Started u t .B hopB restB) : EngineSound t l k := by
  have hw (d : Chan) := ChanState.waits_not ((hc d).ready (hr d)).1
  have hu := started_engine h1 ((hc .A).startable (hw .A).1) hA hb
  have hchB : u.chan .B = { v.chan .B with acc := (v.settleEpoch.chan .B).acc } := by
    obtain ⟨-, -, -, -, -, -, -, -, -, -, -, -, -, -, -, hother, -⟩ := h1
    exact hother.trans ((sameEngine_settle v).chan .B)
  have hset : u.settleEpoch = u := by
    obtain ⟨-, -, -, -, -, -, -, -, -, -, -, -, -, -, -, -, -, hep, -⟩ := h1
    exact settleEpoch_of_settled hep
  refine started_engine (hset.symm ▸ h2) ?_ ?_ (hu.beside ?_)
  · exact (hu.chan .B).startable (by rw [hchB]; exact (hw .B).1)
  · rw [hchB]; exact offers_congr hB rfl rfl rfl
  · rw [hchB]; exact (hw .B).2

/-- Readiness keeps the laws, with a ready partner by way of the pair start (R75, R78). -/
theorem readied_engine (h : Readied s t c) (he : EngineSound s l k)
    (hst : (s.chan c).st = .waiting ∨ (s.chan c).st = .overstay ∨ (s.chan c).st = .switching)
    (ho : (s.chan c).offers hop rest) (hp : hop.trigger = .paired) : EngineSound t l k := by
  obtain ⟨h1, h2, h3⟩ := h
  obtain ⟨-, hnl⟩ := ChanState.waits_not hst
  cases hr : (s.chan c).ready with
  | true => rw [h1 hr]; exact he
  | false =>
    generalize hm : (if (s.chan c).cfg.pairTimeout = 0 then none else some (s.chan c).cfg.pairTimeout) = m
      at h2 h3
    have hb : Beside (s.setChan c ((s.chan c).readied m)) c l k := (he.beside hnl).setChan _ fun i => rfl
    have hown : ((s.chan c).readied m).Sound (l c) := (he.chan c).readied hst ho hp m
    cases hp : (s.chan (chanOther c)).ready with
    | false =>
      rw [h2 hr hp]
      exact hb.engine (by simpa using hown) (by simpa using hnl) fun _ => by simpa using hp
    | true =>
      have hv (d : Chan) : ((s.setChan c ((s.chan c).readied m)).chan d).Sound (l d) ∧
          ((s.setChan c ((s.chan c).readied m)).chan d).ready = true ∧
          ((s.setChan c ((s.chan c).readied m)).chan d).st ≠ .loading := by
        by_cases hd : d = c
        · subst hd; simpa using ⟨hown, rfl, hnl⟩
        · have : d = chanOther c := by cases c <;> cases d <;> simp_all
          subst this
          simpa using ⟨he.chan _, hp, (ChanState.waits_not ((he.chan _).ready hp).1).2⟩
      obtain ⟨hopA, restA, hA, -⟩ := (hv .A).1.ready_offers (hv .A).2.1
      obtain ⟨hopB, restB, hB, -⟩ := (hv .B).1.ready_offers (hv .B).2.1
      obtain ⟨u, hu1, hu2⟩ := h3 hr hp hopA restA hopB restB hA hB
      refine pairStart_engine (fun d => (hv d).1) (fun d => (hv d).2.1) ?_ hA hB hu1 hu2
      cases c with
      | A => exact hb
      | B => exact ⟨(hv .B).1, hb.pins, ⟨fun h => absurd h (hv .B).2.2, fun h => absurd h hb.free⟩,
          fun h => absurd (hb.load.mpr h) (hv .A).2.2⟩

/-! An evaluation. -/

/-- What an evaluation of the head `hop` asks of its channel: the laws of a channel outside SWITCHING with its
dwell run out, less that it may have been left ready on that head, and that the current hop may be offered in DWELL
(R38, R54). -/
structure Channel.Evaluable (loose : Bool) (ch : Channel) (hop : HopEntry) (rest : List HopEntry) : Prop
    extends Channel.Startable ch where
  st : ch.st = .waiting ∨ ch.st = .dwell ∨ ch.st = .overstay
  noHop : ch.gate.hold.noHop = ch.cur.isNone
  shut : ch.cur = none → ch.gate.st = .closed
  blankOnly : loose = false → ch.gate.hold.blank = false
  holds : ch.cur.isSome = ch.st.holdsHop
  dwell : ch.dwell = 0
  stop : ch.stopAtEnd = false
  offers : ch.offers hop rest
  ready : ch.ready = true → hop.trigger = .paired ∧ ch.st ≠ .dwell
  timer : ch.timer.isSome = true → ch.ready = true

variable {o : Bool} {ch : Channel}

theorem Channel.Evaluable.acc (h : ch.Evaluable o hop rest) (a : BitVec 32) :
    ({ ch with acc := a } : Channel).Evaluable o hop rest := { h with }

theorem Channel.Evaluable.notLoading (h : ch.Evaluable o hop rest) : ch.st ≠ .loading := by
  rcases h.st with h | h | h <;> simp [h]

/-- A channel outside DWELL, or with a head that is met, is a lawful one. -/
theorem Channel.Evaluable.selfHop (h : ch.Evaluable o hop rest) (hs : ch.selfHead = true) :
    ch.cur.isSome = true := by
  rcases h.offers with ⟨h1, -⟩ | ⟨-, h2, -⟩
  · simp [h1] at hs
  · simp [h2]

theorem Channel.Evaluable.ready_paired (h : ch.Evaluable o hop rest) (hr : ch.ready = true) :
    ch.offered.map HopEntry.trigger = some .paired := by
  rw [offered_of_offers h.offers]
  simp [(h.ready hr).1]

/-- The head is waited on in OVERSTAY with a current hop (R51). -/
theorem Channel.Evaluable.overstay (h : ch.Evaluable o hop rest) (hc : ch.cur.isSome = true) :
    ({ ch with st := .overstay } : Channel).Sound o where
  gate := h.gate
  ramp := h.ramp
  noHop := h.noHop
  shut := h.shut
  ending := h.ending
  blank := by simp
  blankOnly h0 h1 := by simp [h.blankOnly h0] at h1
  hop := hc
  dwell := .inr (.inr h.dwell)
  stop h0 := by simp [h.stop] at h0
  room := h.room
  self h0 := ⟨h.self h0, by simp⟩
  ready h0 := ⟨by simp, h.ready_paired h0⟩
  timer := h.timer

/-- The head is waited on in WAITING without one (R51). -/
theorem Channel.Evaluable.waiting (h : ch.Evaluable o hop rest) (hc : ch.cur.isSome = false) :
    ch.st = .waiting ∧ ch.Sound o := by
  have hw : ch.st = .waiting := by
    rcases h.st with hs | hs | hs
    · exact hs
    all_goals have := h.holds; simp [hs, hc, ChanState.holdsHop] at this
  exact ⟨hw, {
    gate := h.gate, ramp := h.ramp, noHop := h.noHop, shut := h.shut, room := h.room
    ending := by rw [h.ending, hw]; rfl
    blank := by simp [hw]
    blankOnly := fun h0 h1 => by simp [h.blankOnly h0] at h1
    hop := h.holds
    dwell := .inr (.inr h.dwell)
    stop := fun h0 => by simp [h.stop] at h0
    self := fun h0 => by simp [h.selfHop h0] at hc
    ready := fun h0 => ⟨.inl hw, h.ready_paired h0⟩
    timer := h.timer }⟩

/-- A head that is waited on keeps the laws (R51). -/
theorem waited_engine (h : Waited s t c) (he : (s.chan c).Evaluable (l c) hop rest) (hb : Beside s c l k)
    (h1 : (s.chan c).ready = true → (s.chan (chanOther c)).ready = false) : EngineSound t l k ∧
      ((t.chan c).st = .waiting ∨ (t.chan c).st = .overstay) ∧ (t.chan c).offers hop rest := by
  unfold Waited at h
  split at h
  · rename_i hc
    have hch : t.chan c = { s.chan c with st := .overstay } := by rw [h]; cases c <;> rfl
    have hoth : t.chan (chanOther c) = s.chan (chanOther c) := by rw [h]; cases c <;> rfl
    have hbs : Beside t c l k := by
      have hset := hb.setChan { s.chan c with st := .overstay } fun i => rfl
      exact SameEngine.beside (.of_eq (by rw [h]) fun d => by rw [h]; cases d <;> rfl) hset
    refine ⟨hbs.engine ?_ ?_ ?_, ?_, ?_⟩
    · rw [hch]; exact he.overstay hc.1
    · simp [hch]
    · rw [hch, hoth]; exact h1
    · simp [hch]
    · rw [hch]; exact offers_congr he.offers rfl rfl rfl
  · rename_i hc
    rw [h]
    have hs : (s.chan c).Sound (l c) ∧ ((s.chan c).st = .waiting ∨ (s.chan c).st = .overstay) := by
      cases hcur : (s.chan c).cur.isSome with
      | false => exact ⟨(he.waiting hcur).2, .inl (he.waiting hcur).1⟩
      | true =>
        have hov : (s.chan c).st = .overstay := by simpa [hcur] using hc
        have := he.overstay hcur
        rw [← hov] at this
        exact ⟨this, .inr hov⟩
    exact ⟨hb.engine hs.1 he.notLoading h1, hs.2, he.offers⟩

/-- What `Moved` leaves as it was, where its channel pins the same slots. -/
theorem moved_pins {x : Channel} {h : HoldSet} (m : Moved s t c x h) (hp : s.PinsSound)
    (hq : ∀ i, x.pinsOn i = (s.chan c).pinsOn i) : t.PinsSound := by
  obtain ⟨g, -, -, rfl⟩ := m
  exact SameEngine.pins (.of_eq (by cases c <;> rfl) fun d => by cases c <;> cases d <;> rfl)
    (hp.setChan { x with gate := g } hq)

theorem moved_other {x : Channel} {h : HoldSet} (m : Moved s t c x h) :
    t.chan (chanOther c) = s.chan (chanOther c) := by
  obtain ⟨g, -, -, rfl⟩ := m
  cases c <;> rfl

theorem moved_gate {x : Channel} {h : HoldSet} (m : Moved s t c x h) :
    ∃ g, g.hold = h ∧ t.chan c = { x with gate := g } ∧
      ((s.chan c).gate.lawful = true → GateLeft (s.chan c).cfg.ramp (s.chan c).gate h g) := by
  obtain ⟨g, h1, hg, rfl⟩ := m
  exact ⟨g, h1, by cases c <;> rfl, hg⟩

theorem moved_beside {x : Channel} {h : HoldSet} (m : Moved s t c x h) (hb : Beside s c l k)
    (hq : ∀ i, x.pinsOn i = (s.chan c).pinsOn i) : Beside t c l k :=
  ⟨by rw [moved_other m]; exact hb.other, moved_pins m hb.pins hq, by rw [moved_other m]; exact hb.load, hb.free⟩

/-- The entry into SWITCHING keeps the laws (R52). -/
theorem blanked_engine (h : Blanked s b c) (he : (s.chan c).Evaluable (l c) hop rest) (hb : Beside s c l k)
    (h1 : (s.chan c).ready = true → (s.chan (chanOther c)).ready = false) (hc : (s.chan c).cur.isSome = true) :
    EngineSound b l k ∧ (b.chan c).st = .switching ∧ (b.chan c).offers hop rest := by
  have hbs := moved_beside h hb fun i => rfl
  have hoth := moved_other h
  obtain ⟨g, hh, hch, hg⟩ := moved_gate h
  have hleft := hg he.gate
  refine ⟨hbs.engine ?_ ?_ ?_, ?_, ?_⟩
  · rw [hch]
    exact {
      gate := gateLeft_lawful he.gate hleft
      ramp := gateLeft_still hleft he.ramp
      noHop := by rw [hh]; exact he.noHop
      shut := fun h0 => by simp_all
      ending := by rw [hh]; exact he.ending
      blank := fun _ => by rw [hh]
      blankOnly := fun _ _ => rfl
      hop := hc
      dwell := .inr (.inr he.dwell)
      stop := fun h0 => by simp [he.stop] at h0
      room := he.room
      self := fun h0 => ⟨he.self h0, by simp⟩
      ready := fun h0 => ⟨by simp, he.ready_paired h0⟩
      timer := he.timer }
  · simp [hch]
  · rw [hch, hoth]; exact h1
  · simp [hch]
  · rw [hch]; exact offers_congr he.offers rfl rfl rfl

/-- A head that is met keeps the laws (R51, R52). -/
theorem met_engine (h : Met s t c hop rest) (he : (s.chan c).Evaluable (l c) hop rest) (hb : Beside s c l k)
    (h1 : (s.chan c).ready = true → (s.chan (chanOther c)).ready = false) : EngineSound t l k := by
  by_cases hm : hop.blank = false ∨ (s.chan c).gate.st = .closed
  · exact started_engine (h.1 hm) he.toStartable he.offers hb
  · simp only [not_or, Bool.not_eq_false] at hm
    have hc : (s.chan c).cur.isSome = true := by
      cases hcur : (s.chan c).cur with
      | none => exact absurd (he.shut hcur) hm.2
      | some _ => rfl
    obtain ⟨b, hbl, h2, h3⟩ := h.2 hm.1 hm.2
    obtain ⟨hbe, hst, ho⟩ := blanked_engine hbl he hb h1 hc
    by_cases hg : (b.chan c).gate.st = .closed
    · exact started_engine (h3 hg) ((hbe.chan c).startable (by rw [hst]; rfl)) ho (hbe.beside (by simp [hst]))
    · rw [h2 hg]; exact hbe

/-- An evaluation keeps the laws (Table 3-4). -/
theorem evaluated_engine {kept : Bool} (h : Evaluated s t c hop rest kept)
    (he : (s.chan c).Evaluable (l c) hop rest) (hb : Beside s c l k)
    (h1 : (s.chan c).ready = true → (s.chan (chanOther c)).ready = false)
    (hk : kept = true → (s.chan c).cur.isSome = true) : EngineSound t l k := by
  obtain ⟨hafter, hline, htime, hpaired⟩ := h
  have hsame := sameEngine_settle s
  cases ht : hop.trigger with
  | after => exact met_engine (hafter ht) he hb h1
  | line => exact (waited_engine (hline ht) he hb h1).1
  | time at_ =>
    obtain ⟨hlt, heq, hgt⟩ := htime at_ ht
    have he' : (s.settleEpoch.chan c).Evaluable (l c) hop rest := by rw [hsame.chan]; exact he.acc _
    have hb' := hsame.beside hb
    have h1' : (s.settleEpoch.chan c).ready = true → (s.settleEpoch.chan (chanOther c)).ready = false := by
      rw [hsame.chan c, hsame.chan (chanOther c)]; exact h1
    rcases BitVec.lt_trichotomy s.settleEpoch.epoch.count at_ with hc | hc | hc
    · exact (waited_engine (hlt hc) he' hb' h1').1
    · exact met_engine (heq hc) he' hb' h1'
    · exact met_engine (hgt hc) (by simpa using he') ((sameEngine_report _ _).beside hb') (by simpa using h1')
  | paired =>
    obtain ⟨hblank, hplain⟩ := hpaired ht
    by_cases hm : hop.blank = false ∨ ((s.chan c).gate.st = .closed ∧ kept = false)
    · obtain ⟨w, hw, hr⟩ := hplain hm
      obtain ⟨hwe, hst, ho⟩ := waited_engine hw he hb h1
      exact readied_engine hr hwe (hst.imp_right .inl) ho ht
    · have hm' : hop.blank = true ∧ ((s.chan c).gate.st ≠ .closed ∨ kept = true) := by
        simp only [not_or, not_and, Bool.not_eq_false] at hm
        refine ⟨hm.1, ?_⟩
        by_cases hg : (s.chan c).gate.st = .closed
        · exact .inr (hm.2 hg)
        · exact .inl hg
      have hc : (s.chan c).cur.isSome = true := by
        cases hcur : (s.chan c).cur with
        | none =>
          rcases hm'.2 with hg | hg
          · exact absurd (he.shut hcur) hg
          · simp [hcur] at hk; simp [hk] at hg
        | some _ => rfl
      obtain ⟨b, hbl, h2, h3⟩ := hblank hm'.1 hm'.2
      obtain ⟨hbe, hst, ho⟩ := blanked_engine hbl he hb h1 hc
      by_cases hg : (b.chan c).gate.st = .closed
      · exact readied_engine (h3 hg) hbe (.inr (.inr hst)) ho ht
      · rw [h2 hg]; exact hbe

end Sys2Proof.Machine
end

section
/-! The end of a hop, the underrun and the removal of a head keep the laws. -/

namespace Sys2Proof.Machine

variable {s t w : State} {c : Chan} {l : Chan → Bool} {k : Option Chan} {dest : EndDest}

/-! ENDING. -/

/-- What the entry into ENDING asks of its channel. -/
structure Channel.Endable (ch : Channel) : Prop where
  gate : ch.gate.lawful = true
  ramp : ch.cfg.ramp = 0 → ch.gate.st = .opened ∨ ch.gate.st = .closed
  room : ch.queue.length + (ch.cfg.cycle && ch.cur.isSome).toNat ≤ 64
  noHop : ch.gate.hold.noHop = ch.cur.isNone
  cur : ch.cur.isSome = true
  ready : ch.ready = false
  timer : ch.timer = none

/-- The laws of a state in which both channels keep theirs and one of them is not ready. -/
theorem Beside.engine_unready (h : Beside s c l k) (hc : (s.chan c).Sound (l c)) (hl : (s.chan c).st ≠ .loading)
    (hr : (s.chan c).ready = false) : EngineSound s l k := h.engine hc hl fun h0 => by simp [hr] at h0

/-- The hop of a channel in ENDING is released: the pins fall with it, or it joins the tail (R5, R39, R64). -/
theorem released_pins {x y : Channel} (hp : s.PinsSound) (hx : s.chan c = x)
    (hy : w.chan c = y) (hcur : y.cur = none)
    (hq : y.queue = if x.cfg.cycle then x.queue ++ x.cur.toList else x.queue)
    (ho : w.chan (chanOther c) = s.chan (chanOther c))
    (hs : ∀ i, w.slot i = if x.cfg.cycle = false ∧ x.cur.map HopEntry.slot = some i
      then { s.slot i with pins := (s.slot i).pins - 1 } else s.slot i) : w.PinsSound := fun i => by
  obtain ⟨h1, h2⟩ := hp i
  have hret := retired_pins x i
  have hnew : y.pinsOn i + (if x.cfg.cycle = true then 0 else entryPins x.cur.toList i) = x.pinsOn i := by
    rw [Channel.pinsOn_eq, Channel.pinsOn_eq, hq, hcur]
    cases x.cfg.cycle <;> simp
  rw [pinsOn_sum s c, hx] at h1
  rw [pinsOn_sum w c, ho, hy, hs]
  rw [hret] at hnew
  split
  · rename_i hr
    rw [if_pos hr] at hnew
    exact ⟨by simp only; omega, fun h0 => h2 (by simp only at h0; omega)⟩
  · rename_i hr
    rw [if_neg hr] at hnew
    exact ⟨by omega, h2⟩

/-- The channel whose ENDING has completed, under its CLOSED gate, keeps its laws (R64). -/
theorem released_sound {o : Bool} {x : Channel} {st : ChanState} {g : Gate} (hx : x.Sound o)
    (he : x.st.isEnding = true) (hst : st = .idle ∨ st = .waiting) (hg : g.lawful = true) (hs : g.st = .closed)
    (hh : g.hold = { x.gate.hold with noHop := true, ending := false }) :
    ({ x with st := st, cur := none, dwell := 0, queue := (if x.cfg.cycle then x.queue ++ x.cur.toList else x.queue),
              gate := g } : Channel).Sound o where
  gate := hg
  ramp _ := .inr hs
  noHop := by rw [hh]; rfl
  shut _ := hs
  ending := by rw [hh]; rcases hst with h | h <;> rw [h] <;> rfl
  blank h0 := by simp only at h0; rcases hst with h | h <;> simp [h] at h0
  blankOnly h0 h1 := by
    have := hx.blankOnly h0 (by rw [hh] at h1; exact h1)
    simp [this, ChanState.isEnding] at he
  hop := by rcases hst with h | h <;> simp [h, ChanState.holdsHop]
  dwell := .inr (.inr rfl)
  stop h0 := by
    have := hx.stop h0
    simp [this, ChanState.isEnding] at he
  room := by
    have hr := hx.room
    cases hc : x.cfg.cycle <;> cases hcur : x.cur <;> simp [hc, hcur] at hr ⊢ <;> omega
  self h0 := by
    rcases (hx.self h0).2 with h | h <;> simp [h, ChanState.isEnding] at he
  ready h0 := by
    rcases (hx.ready h0).1 with h | h | h <;> simp [h, ChanState.isEnding] at he
  timer := hx.timer

/-- The state that ENDING leads to. -/
def EndDest.state : EndDest → ChanState
  | .idle => .idle
  | .waiting => .waiting

/-- The completion of ENDING keeps the laws, the evaluation of a head behind it among them (R64). -/
theorem endingDone_engine (h : EndingDone s t c dest) (he : EngineSound s l k)
    (hst : (s.chan c).st = .ending dest) (hg : (s.chan c).gate.st = .closed) : EngineSound t l k := by
  obtain ⟨w, hslot, hm, hidle, hwait⟩ := h
  have hx := he.chan c
  have hend : (s.chan c).st.isEnding = true := by rw [hst]; rfl
  have hsl (d : Chan) : State.chan { s with slots := w.slots } d = s.chan d := by cases d <;> rfl
  have hoth := moved_other hm
  obtain ⟨g, hh, hch, hleft⟩ := moved_gate hm
  rw [hsl] at hoth hleft
  have hleft' := hleft hx.gate
  have hgl := gateLeft_lawful hx.gate hleft'
  have hgs := gateLeft_shut hleft' hx.gate hg (by simp [HoldSet.isEmpty])
  have hws : (w.chan c).Sound (l c) := by
    rw [hch]
    exact released_sound hx hend (by cases dest <;> simp) hgl hgs hh
  have hwst : (w.chan c).st = dest.state := by rw [hch]; cases dest <;> rfl
  have hnl : (w.chan c).st ≠ .loading := by rw [hwst]; cases dest <;> simp [EndDest.state]
  have hnr : (w.chan c).ready = false := by
    cases hr : (w.chan c).ready with
    | false => rfl
    | true =>
      rw [hch] at hr
      rcases (hx.ready hr).1 with h0 | h0 | h0 <;> simp [h0] at hst
  have hb0 := he.beside (c := c) (by rw [hst]; simp)
  have hb : Beside w c l k :=
    ⟨by rw [hoth]; exact hb0.other,
      released_pins hb0.pins rfl rfl (by rw [hch]) (by rw [hch]) hoth hslot,
      by rw [hoth]; exact hb0.load, hb0.free⟩
  have hwe := hb.engine_unready hws hnl hnr
  cases dest with
  | idle => rw [hidle (.inl rfl)]; exact hwe
  | waiting =>
    cases hq : (w.chan c).queue with
    | nil => rw [hidle (.inr hq)]; exact hwe
    | cons hop rest =>
      have hev := hwait rfl hop rest hq
      have hself : (w.chan c).selfHead = false := by
        cases hs : (w.chan c).selfHead with
        | false => rfl
        | true => rcases (hws.self hs).2 with h0 | h0 <;> rw [hwst] at h0 <;> simp [EndDest.state] at h0
      have hsame : w.setChan c { w.chan c with selfHead := false } = w := by
        rw [← hself]; exact State.setChan_self w c
      rw [hsame] at hev
      have hcur : (w.chan c).cur = none := by rw [hch]
      refine evaluated_engine hev ?_ hb (fun h0 => by simp [hnr] at h0) (by simp)
      exact {
        gate := hws.gate, ramp := hws.ramp, room := hws.room, noHop := hws.noHop, shut := hws.shut
        ending := by rw [hws.ending, hwst]; rfl
        self := fun h0 => by simp [hself] at h0
        st := .inl hwst
        blankOnly := fun h0 => by
          cases hbk : (w.chan c).gate.hold.blank with
          | false => rfl
          | true => have := hws.blankOnly h0 hbk; rw [hwst] at this; simp [EndDest.state] at this
        holds := hws.hop
        dwell := by rw [hch]
        stop := by
          cases hs : (w.chan c).stopAtEnd with
          | false => rfl
          | true => have := hws.stop hs; rw [hwst] at this; simp [EndDest.state] at this
        offers := .inl ⟨hself, hq⟩
        ready := fun h0 => by simp [hnr] at h0
        timer := hws.timer }

/-- The entry into ENDING keeps the laws, its completion under a CLOSED gate among them (R63, R64). -/
theorem endingEntered_engine (h : EndingEntered s t c dest) (he : (s.chan c).Endable) (hb : Beside s c l k) :
    EngineSound t l k := by
  obtain ⟨w, hm, hopen, hclosed⟩ := h
  have hbw := moved_beside hm hb fun i => rfl
  obtain ⟨g, hh, hch, hg⟩ := moved_gate hm
  have hleft := hg he.gate
  have hws : (w.chan c).Sound (l c) := by
    rw [hch]
    exact {
      gate := gateLeft_lawful he.gate hleft
      ramp := gateLeft_still hleft he.ramp
      noHop := by rw [hh]; exact he.noHop
      shut := fun h0 => by have := he.cur; simp_all
      ending := by rw [hh]; rfl
      blank := fun h0 => by simp at h0
      blankOnly := fun _ h1 => by rw [hh] at h1; simp at h1
      hop := he.cur
      dwell := .inr (.inl rfl)
      stop := fun h0 => by simp at h0
      room := he.room
      self := fun h0 => by simp at h0
      ready := fun h0 => absurd h0 (by simp [he.ready])
      timer := fun h0 => absurd h0 (by simp [he.timer]) }
  have hwst : (w.chan c).st = .ending dest := by rw [hch]
  have hwe := hbw.engine_unready hws (by simp [hwst]) (by rw [hch]; exact he.ready)
  by_cases hgc : (w.chan c).gate.st = .closed
  · exact endingDone_engine (hclosed hgc) hwe hwst hgc
  · rw [hopen hgc]; exact hwe

/-! The removal of a head. -/

/-- What the underrun procedure and the removal of a head ask of their channel: a current hop with its dwell run
out, no readiness, and no more of the laws of the offer. -/
structure Channel.Removable (loose : Bool) (ch : Channel) : Prop extends Channel.Endable ch where
  st : ch.st = .dwell ∨ ch.st = .overstay
  ending : ch.gate.hold.ending = false
  blankOnly : loose = false → ch.gate.hold.blank = false
  dwell : ch.dwell = 0
  stop : ch.stopAtEnd = false

theorem Channel.Removable.offer {o : Bool} {ch : Channel} (h : ch.Removable o) (self : Bool) :
    ({ ch with selfHead := self } : Channel).Removable o := { h with }

theorem Channel.Removable.notLoading {o : Bool} {ch : Channel} (h : ch.Removable o) : ch.st ≠ .loading := by
  rcases h.st with h | h <;> simp [h]

/-- Such a channel is lawful in OVERSTAY with no offer of its own hop. -/
theorem Channel.Removable.overstay {o : Bool} {ch : Channel} (h : ch.Removable o) (hs : ch.selfHead = false) :
    ({ ch with st := .overstay } : Channel).Sound o where
  gate := h.gate
  ramp := h.ramp
  noHop := h.noHop
  shut h0 := by have := h.cur; simp_all
  ending := h.ending
  blank h0 := by simp at h0
  blankOnly h0 h1 := by simp [h.blankOnly h0] at h1
  hop := h.cur
  dwell := .inr (.inr h.dwell)
  stop h0 := absurd h0 (by simp [h.stop])
  room := h.room
  self h0 := absurd h0 (by simp [hs])
  ready h0 := absurd h0 (by simp [h.ready])
  timer h0 := absurd h0 (by simp [h.timer])

/-- The underrun procedure keeps the laws (R61). -/
theorem underran_engine (h : Underran s t c) (he : (s.chan c).Removable (l c)) (hb : Beside s c l k) :
    EngineSound t l k := by
  obtain ⟨hhold, hsquelch, hstop⟩ := h
  generalize hw : State.report (s.setChan c { s.chan c with selfHead := false })
    (.underrun c (s.chan c).cfg.policy) = w at hhold hsquelch hstop
  have hch : w.chan c = { s.chan c with selfHead := false } := by rw [← hw]; simp
  have hbw : Beside w c l k := by
    rw [← hw]
    exact (sameEngine_report _ _).beside (hb.setChan _ fun i => rfl)
  have hrem : (w.chan c).Removable (l c) := by rw [hch]; exact he.offer false
  cases hp : (s.chan c).cfg.policy with
  | squelch => exact endingEntered_engine (hsquelch hp) hrem.toEndable hbw
  | stop => exact endingEntered_engine (hstop hp) hrem.toEndable hbw
  | hold =>
    have hov := hrem.overstay (by rw [hch])
    have ht := hhold hp
    split at ht
    · rename_i hst
      have hwst : (w.chan c).st = .overstay := by rw [hch]; exact hst
      rw [ht]
      rw [← hwst] at hov
      exact hbw.engine_unready hov (by simp [hwst]) hrem.ready
    · have hbt : Beside (w.setChan c { w.chan c with st := .overstay }) c l k := hbw.setChan _ fun i => rfl
      have hsame : SameEngine (w.setChan c { w.chan c with st := .overstay }) t :=
        .of_eq (by rw [ht]) fun d => by rw [ht]; cases d <;> rfl
      exact hsame.engine (hbt.engine_unready (by simpa using hov) (by simp) (by simpa using hrem.ready))

/-- What follows a removal keeps the laws (R35, R54, R69, R82). -/
theorem headRemoved_engine {kept : Bool} (h : HeadRemoved s t c kept) (he : (s.chan c).Removable (l c))
    (hb : Beside s c l k) : EngineSound t l k := by
  obtain ⟨hunder, heval⟩ := h
  generalize hself : ((s.chan c).queue.isEmpty && (s.chan c).cfg.cycle && (s.chan c).cur.isSome) = self at heval
  have hrem := he.offer self
  have evaluates (hop : HopEntry) (rest : List HopEntry)
      (ho : ({ s.chan c with selfHead := self } : Channel).offers hop rest) : EngineSound t l k := by
    have hev := heval hop rest (by simpa using ho)
    refine evaluated_engine hev ?_ (hb.setChan _ fun i => rfl) (fun h0 => ?_) fun _ => ?_
    · rw [State.setChan_chan_same]
      exact {
        gate := hrem.gate, ramp := hrem.ramp, room := hrem.room, noHop := hrem.noHop, ending := hrem.ending
        shut := fun h0 => by have := he.cur; simp_all
        self := fun h0 => by
          have h1 : self = true := h0
          rw [← hself] at h1
          simp only [Bool.and_eq_true] at h1
          exact h1.1.2
        st := .inr he.st
        blankOnly := hrem.blankOnly
        holds := by rcases hrem.st with h0 | h0 <;> rw [h0] <;> exact hrem.cur
        dwell := hrem.dwell
        stop := hrem.stop
        offers := ho
        ready := fun h0 => absurd h0 (by simp [he.ready])
        timer := fun h0 => absurd h0 (by simp [he.timer]) }
    · rw [State.setChan_chan_same] at h0
      exact absurd h0 (by simp [he.ready])
    · rw [State.setChan_chan_same]; exact he.cur
  cases hq : (s.chan c).queue with
  | cons hop rest => exact evaluates hop rest (.inl ⟨by simp [← hself, hq], hq⟩)
  | nil =>
    cases hc : (s.chan c).cfg.cycle with
    | false => exact underran_engine (hunder hq hc) he hb
    | true =>
      obtain ⟨hop, hcur⟩ := Option.isSome_iff_exists.mp he.cur
      exact evaluates hop [] (.inr ⟨by simp [← hself, hq, hc, hcur], hcur, hq⟩)

/-- BLANK leaves last: what was loose is lawful again (R69, R82, R83). -/
theorem blankDropped_engine (h : BlankDropped s t c) (he : EngineSound s l k)
    (hl : ∀ d, d ≠ c → l d = false) : EngineSound t (fun _ => false) k := by
  obtain ⟨hkeep, hdrop⟩ := h
  have hx := he.chan c
  have hother : (s.chan (chanOther c)).Sound false := by
    have := he.chan (chanOther c)
    rwa [hl (chanOther c) (by cases c <;> simp)] at this
  by_cases hb : (s.chan c).gate.hold.blank = false ∨ (s.chan c).st = .switching
  · rw [hkeep hb]
    refine he.update c he.pins { hx with blankOnly := fun _ h1 => ?_ } rfl hother (he.load c) he.notBoth
    rcases hb with h0 | h0
    · simp [h0] at h1
    · exact h0
  · simp only [not_or, Bool.not_eq_false] at hb
    have hm := hdrop hb.1 hb.2
    obtain ⟨g, hh, hch, hg⟩ := moved_gate hm
    have hleft := hg hx.gate
    refine he.update c (moved_pins hm he.pins fun i => rfl) ?_ (moved_other hm) hother
      (by rw [hch]; exact he.load c) (by rw [hch]; exact he.notBoth)
    rw [hch]
    exact { hx with
      gate := gateLeft_lawful hx.gate hleft
      ramp := gateLeft_still hleft hx.ramp
      noHop := by rw [hh]; exact hx.noHop
      shut := fun h0 => by
        have hcur : (s.chan c).cur = none := h0
        exact gateLeft_shut hleft hx.gate (hx.shut hcur) (by simp [HoldSet.isEmpty, hx.noHop, hcur])
      ending := by rw [hh]; exact hx.ending
      blank := fun h0 => absurd h0 hb.2
      blankOnly := fun _ h1 => by rw [hh] at h1; simp at h1 }

end Sys2Proof.Machine
end

section
/-! `State.lawful` in two parts: what the hop engine touches, and what stands around it. The events of a sample
period keep the second by `EngineMoves`. -/

namespace Sys2Proof.Machine

variable {s t : State} {c : Chan}

/-- The channel of the load in flight. -/
def State.loadChan (s : State) : Option Chan := s.loader.ctx.map LoadCtx.chan

/-- The slots that the load in flight reserves: none without one (R7). -/
def State.loadUse (s : State) : BitVec 48 :=
  match s.loader.ctx with
  | none => 0#48
  | some k => ((s.store.dir k.area).commit.map CommitRec.slotUse).getD 0#48

/-- The store engine's law (R148, R155), clause by clause. -/
structure State.EngineHeld (s : State) : Prop where
  holders : s.store.op.isSome.toNat + s.loader.ctx.isSome.toNat + s.reports.completion.isSome.toNat +
    s.reports.queue.countP isPowerUp = (s.store.engine != .idle).toNat
  scan : s.store.op.any StoreOp.isScan = !s.reports.isOpen
  closed : s.reports.isOpen = false → s.reports.queue = []

/-- The laws around the hop engine: the reserved marks (R7), the staging buffer (R169), the LINE reasons (R101) and
the store engine (R148, R155). -/
structure State.Around (s : State) : Prop where
  reserved : ∀ i : Fin 48, (s.slot i).reserved = s.loadUse.getLsbD i.val
  staging : s.loader.ctx = none → s.loader.staging = []
  line : ∀ c, (s.chan c).gate.hold.line = ((s.chan c).cfg.follow && s.gateLine)
  engine : s.EngineHeld

/-- The laws of what the hop engine touches, with BLANK let loose nowhere. -/
abbrev State.Inside (s : State) (k : Option Chan) : Prop := EngineSound s (fun _ => false) k

theorem engineLawful_iff (s : State) : s.engineLawful = true ↔ s.EngineHeld := by
  have hc : (s.reports.isOpen || s.reports.queue.isEmpty) = true ↔
      (s.reports.isOpen = false → s.reports.queue = []) := by
    cases s.reports.isOpen <;> simp
  simp only [State.engineLawful, State.engineHolders, Bool.and_eq_true, beq_iff_eq, hc]
  exact ⟨fun ⟨⟨h1, h2⟩, h3⟩ => ⟨h1, h2, h3⟩, fun ⟨h1, h2, h3⟩ => ⟨⟨h1, h2⟩, h3⟩⟩

theorem reservedLawful_iff (s : State) (i : Fin 48) :
    s.reservedLawful i = true ↔ (s.slot i).reserved = s.loadUse.getLsbD i.val := by
  unfold State.reservedLawful State.loadUse
  cases s.loader.ctx <;> simp

theorem pinsLawful_iff (s : State) (i : Fin 48) : s.pinsLawful i = true ↔
    (s.slot i).pins = s.chA.pinsOn i + s.chB.pinsOn i ∧
      (0 < (s.slot i).pins → (s.slot i).tone.isSome = true) := by
  unfold State.pinsLawful
  cases h : (s.slot i).pins <;> simp

theorem loadLawful_iff (s : State) (c : Chan) :
    s.loadLawful c = true ↔ ((s.chan c).st = .loading ↔ s.loadChan = some c) := by
  unfold State.loadLawful State.loadChan
  rw [beq_iff_eq, Bool.eq_iff_iff, beq_iff_eq, beq_iff_eq]

/-- The laws of the machine in these two parts. -/
theorem lawful_iff (s : State) : s.lawful = true ↔ s.Inside s.loadChan ∧ s.Around := by
  have hAB : (!(s.chA.ready && s.chB.ready)) = true ↔ (s.chA.ready = true → s.chB.ready = false) := by
    cases s.chA.ready <;> simp
  have hst : s.stagingLawful = true ↔ (s.loader.ctx = none → s.loader.staging = []) := by
    unfold State.stagingLawful
    cases s.loader.ctx <;> simp
  simp only [State.lawful, Bool.and_eq_true, hAB, hst, Channel.lawful_iff, List.all_eq_true, List.mem_finRange,
    true_imp_iff, pinsLawful_iff, reservedLawful_iff, loadLawful_iff, engineLawful_iff]
  constructor
  · rintro ⟨⟨⟨⟨⟨⟨⟨⟨⟨⟨hA, hB⟩, h1⟩, hp⟩, hr⟩, hlA⟩, hlB⟩, hs⟩, hnA⟩, hnB⟩, he⟩
    refine ⟨⟨fun d => ?_, h1, hp, fun d => ?_⟩, ⟨hr, hs, fun d => ?_, he⟩⟩ <;> cases d
    exacts [hA, hB, hlA, hlB, by simpa [State.lineLawful] using hnA, by simpa [State.lineLawful] using hnB]
  · rintro ⟨⟨hc, h1, hp, hl⟩, ⟨hr, hs, hn, he⟩⟩
    exact ⟨⟨⟨⟨⟨⟨⟨⟨⟨⟨hc .A, hc .B⟩, h1⟩, hp⟩, hr⟩, hl .A⟩, hl .B⟩, hs⟩,
      by simpa [State.lineLawful] using hn .A⟩, by simpa [State.lineLawful] using hn .B⟩, he⟩

/-- A report block with the same holders keeps the store engine's law. -/
theorem State.EngineHeld.congr (h : s.EngineHeld) (hst : t.store = s.store) (hl : t.loader = s.loader)
    (hr : s.reports.SameHolders t.reports) : t.EngineHeld where
  holders := by rw [hst, hl, hr.completion, hr.powerUps]; exact h.holders
  scan := by rw [hst, hr.isOpen]; exact h.scan
  closed h0 := by
    have h1 : s.reports.isOpen = false := hr.isOpen ▸ h0
    have := hr.closed h1
    rw [h.closed h1] at this
    exact List.length_eq_zero_iff.mp this

/-- The moves of the hop engine keep the laws around it. -/
theorem State.Around.moves (h : s.Around) (m : EngineMoves s t) : t.Around where
  reserved i := by
    rw [(m.slot i).2, State.loadUse, m.loader, m.store]
    exact h.reserved i
  staging := by rw [m.loader]; exact h.staging
  line c := by
    obtain ⟨h1, -, h3⟩ := m.setup c
    rw [h1, h3, m.gateLine]
    exact h.line c
  engine := h.engine.congr m.store m.loader m.holders

/-- An event of the hop engine keeps the laws of the machine where it keeps those of what it touches. -/
theorem lawful_of_moves (h : s.lawful = true) (m : EngineMoves s t) (hi : t.Inside s.loadChan) :
    t.lawful = true := by
  have hl : t.loadChan = s.loadChan := by rw [State.loadChan, m.loader]; rfl
  exact (lawful_iff t).mpr ⟨hl ▸ hi, ((lawful_iff s).mp h).2.moves m⟩

/-- A state alike in its slots, channels, GATE sample, load and reservations, and with the laws of its store engine,
keeps the laws. -/
theorem lawful_congr (h : s.lawful = true) (hs : SameEngine s t) (hg : t.gateLine = s.gateLine)
    (hctx : t.loader.ctx = s.loader.ctx) (hsg : t.loader.staging = s.loader.staging)
    (hu : t.loadUse = s.loadUse) (he : t.EngineHeld) : t.lawful = true := by
  obtain ⟨hi, ha⟩ := (lawful_iff s).mp h
  have hl : t.loadChan = s.loadChan := by rw [State.loadChan, hctx]; rfl
  refine (lawful_iff t).mpr ⟨hl ▸ hs.engine hi, ⟨fun i => ?_, ?_, fun c => ?_, he⟩⟩
  · rw [hu, State.slot, hs.slots]
    exact ha.reserved i
  · rw [hctx, hsg]; exact ha.staging
  · rw [hs.chan c, hg]; exact ha.line c

/-- Without a load in flight nothing is reserved. -/
theorem loadUse_none (h : s.loader.ctx = none) : s.loadUse = 0#48 := by simp [State.loadUse, h]

/-! The end of an event. -/

theorem arbitrate_sameEngine (s : State) : SameEngine s s.arbitrate ∧ s.arbitrate.gateLine = s.gateLine ∧
    s.arbitrate.loader.ctx = s.loader.ctx ∧ s.arbitrate.loader.staging = s.loader.staging ∧
    s.arbitrate.store.dirs = s.store.dirs ∧ s.arbitrate.store.op = s.store.op := by
  have hh (r : Report) : SameEngine s (s.sendHead r) ∧ (s.sendHead r).gateLine = s.gateLine ∧
      (s.sendHead r).loader.ctx = s.loader.ctx ∧ (s.sendHead r).loader.staging = s.loader.staging ∧
      (s.sendHead r).store.dirs = s.store.dirs ∧ (s.sendHead r).store.op = s.store.op := by
    unfold State.sendHead
    split <;> exact ⟨.of_eq rfl fun d => by cases d <;> rfl, rfl, rfl, rfl, rfl, rfl⟩
  rcases arbitrate_cases s with ⟨-, h⟩ | ⟨-, -, ⟨o, rest, -, h⟩ | ⟨-, r, -, h⟩ | ⟨-, -, r, rest, -, h⟩ |
    ⟨-, -, -, h⟩⟩ <;> rw [h]
  · exact ⟨.of_eq rfl fun d => rfl, rfl, rfl, rfl, rfl, rfl⟩
  · exact ⟨.of_eq rfl fun d => by cases d <;> rfl, rfl, rfl, rfl, rfl, rfl⟩
  · exact ⟨.of_eq rfl fun d => by cases d <;> rfl, rfl, rfl, rfl, rfl, rfl⟩
  · exact hh r
  · exact ⟨.of_eq rfl fun d => rfl, rfl, rfl, rfl, rfl, rfl⟩

/-- A completion report that leaves frees the store engine (R144). -/
theorem sendCompletion_held {r : Report} (h : s.EngineHeld) (hr : s.reports.completion = some r) :
    (s.sendCompletion r).EngineHeld := by
  have hh := h.holders
  rw [hr] at hh
  refine ⟨?_, h.scan, h.closed⟩
  show s.store.op.isSome.toNat + s.loader.ctx.isSome.toNat + 0 + s.reports.queue.countP isPowerUp = 0
  have : (s.store.engine != .idle).toNat ≤ 1 := Bool.toNat_le _
  simp at hh
  omega

/-- The head of the ordinary queue that leaves frees the store engine where it is POWER_UP (R148). -/
theorem sendHead_held {r : Report} {rest : List Report} (h : s.EngineHeld) (hq : s.reports.queue = r :: rest) :
    (s.sendHead r).EngineHeld := by
  have hh := h.holders
  have hopen : s.reports.isOpen = true := by
    cases ho : s.reports.isOpen with
    | true => rfl
    | false => simp [h.closed ho] at hq
  have hp : s.reports.departHead.queue.countP isPowerUp = rest.countP isPowerUp := by
    simp only [ReportBlock.departHead, hq, List.tail_cons]
    split <;> simp [isPowerUp]
  have hle : (s.store.engine != .idle).toNat ≤ 1 := Bool.toNat_le _
  rw [hq] at hh
  unfold State.sendHead
  split
  · rename_i hb
    have h1 : isPowerUp r = true := by simp [isPowerUp, hb]
    simp only [List.countP_cons, h1, if_true] at hh
    refine ⟨?_, h.scan, fun h0 => absurd (hopen.symm.trans h0) (by simp)⟩
    show s.store.op.isSome.toNat + s.loader.ctx.isSome.toNat + s.reports.completion.isSome.toNat +
      s.reports.departHead.queue.countP isPowerUp = 0
    rw [hp]
    omega
  · rename_i hb
    have h1 : isPowerUp r = false := by
      unfold isPowerUp
      split
      · rename_i ca ar hh; exact absurd hh (hb ca ar)
      · rfl
    simp only [List.countP_cons, h1, Bool.false_eq_true, if_false, Nat.add_zero] at hh
    refine ⟨?_, h.scan, fun h0 => absurd (hopen.symm.trans h0) (by simp)⟩
    show s.store.op.isSome.toNat + s.loader.ctx.isSome.toNat + s.reports.completion.isSome.toNat +
      s.reports.departHead.queue.countP isPowerUp = _
    rw [hp]
    exact hh

theorem arbitrate_held (h : s.EngineHeld) : s.arbitrate.EngineHeld := by
  rcases arbitrate_cases s with ⟨-, ha⟩ | ⟨-, -, ⟨o, rest, -, ha⟩ | ⟨-, r, hr, ha⟩ | ⟨-, -, r, rest, hq, ha⟩ |
    ⟨-, -, -, ha⟩⟩ <;> rw [ha]
  · exact h
  · exact ⟨h.holders, h.scan, h.closed⟩
  · exact sendCompletion_held h hr
  · exact sendHead_held h hq
  · exact h

/-- The arbiter's choice and the ports keep the laws (R122, R144, R148). -/
theorem finish_lawful (h : s.lawful = true) : s.finish.lawful = true := by
  obtain ⟨h1, h2, h3, h4, h5, -⟩ := arbitrate_sameEngine s
  have he := arbitrate_held ((lawful_iff s).mp h).2.engine
  exact lawful_congr h ⟨by rw [State.finish, State.drivePorts_slots, h1.slots],
    fun d => by rw [State.finish, State.drivePorts_chan]; exact h1.chan d⟩ (by simp [State.finish, h2])
    (by simp [State.finish, h3]) (by simp [State.finish, h4]) (by simp [State.finish, State.loadUse, Store.dir, h3, h5])
    (he.congr (by simp [State.finish]) (by simp [State.finish]) (by simpa [State.finish] using .rfl' _))

end Sys2Proof.Machine
end

section
/-! The events of the channels keep the laws of what the hop engine touches. -/

namespace Sys2Proof.Machine

variable {s t w : State} {c : Chan} {hop : HopEntry} {rest : List HopEntry} {l : Chan → Bool}
  {k : Option Chan} {o : Bool} {ch : Channel}

/-! What the laws of a channel give the moves. -/

theorem Channel.Sound.timer_none (h : ch.Sound o) (hr : ch.ready = false) : ch.timer = none := by
  cases ht : ch.timer with
  | none => rfl
  | some n => exact absurd (h.timer (by simp [ht])) (by simp [hr])

theorem Channel.Sound.unready (h : ch.Sound o)
    (hst : ch.st ≠ .waiting ∧ ch.st ≠ .overstay ∧ ch.st ≠ .switching) : ch.ready = false := by
  cases hr : ch.ready with
  | false => rfl
  | true => rcases (h.ready hr).1 with h0 | h0 | h0 <;> simp [h0] at hst

theorem Channel.Sound.unoffered (h : ch.Sound o) (hst : ch.st ≠ .overstay ∧ ch.st ≠ .switching) :
    ch.selfHead = false := by
  cases hs : ch.selfHead with
  | false => rfl
  | true => rcases (h.self hs).2 with h0 | h0 <;> simp [h0] at hst

theorem Channel.Sound.unstopped (h : ch.Sound o) (hst : ch.st ≠ .dwell) : ch.stopAtEnd = false := by
  cases hs : ch.stopAtEnd with
  | false => rfl
  | true => exact absurd (h.stop hs) hst

theorem Channel.Sound.unblanked (h : ch.Sound o) (hst : ch.st ≠ .switching) (ho : o = false) :
    ch.gate.hold.blank = false := by
  cases hb : ch.gate.hold.blank with
  | false => rfl
  | true => exact absurd (h.blankOnly ho hb) hst

theorem Channel.Sound.endable (h : ch.Sound o) (hc : ch.cur.isSome = true) (hr : ch.ready = false) :
    ch.Endable :=
  { gate := h.gate, ramp := h.ramp, room := h.room, noHop := h.noHop, cur := hc, ready := hr
    timer := h.timer_none hr }

theorem Channel.Sound.removable (h : ch.Sound o) (hst : ch.st = .dwell ∨ ch.st = .overstay)
    (hd : ch.dwell = 0) (hs : ch.stopAtEnd = false) (hr : ch.ready = false) : ch.Removable o :=
  { toEndable := h.endable (by rw [h.hop]; rcases hst with h0 | h0 <;> simp [h0, ChanState.holdsHop]) hr
    st := hst
    ending := by rw [h.ending]; rcases hst with h0 | h0 <;> simp [h0, ChanState.isEnding]
    blankOnly := h.unblanked (by rcases hst with h0 | h0 <;> simp [h0])
    dwell := hd
    stop := hs }

/-- A lawful channel that waits on a head can evaluate it. -/
theorem Channel.Sound.evaluable (h : ch.Sound o) (hst : ch.st = .waiting ∨ ch.st = .overstay)
    (ho : ch.offers hop rest) : ch.Evaluable o hop rest :=
  { toStartable := h.startable (by rcases hst with h0 | h0 <;> simp [h0, ChanState.isEnding])
    st := hst.imp_right .inr
    noHop := h.noHop
    shut := h.shut
    blankOnly := h.unblanked (by rcases hst with h0 | h0 <;> simp [h0])
    holds := h.hop
    dwell := by rcases h.dwell with h0 | h0 | h0 <;> rcases hst with h1 | h1 <;> simp_all [ChanState.isEnding]
    stop := h.unstopped (by rcases hst with h0 | h0 <;> simp [h0])
    offers := ho
    ready := fun hr => ⟨by
      have := (h.ready hr).2
      rw [offered_of_offers ho] at this
      simpa using this, by rcases hst with h0 | h0 <;> simp [h0]⟩
    timer := h.timer }

/-- An evaluation of the entry at position 0 leaves the offer as it is where none is of the own hop (R38). -/
theorem evaluate_head {keep : Bool} (hs : (s.chan c).selfHead = false) (hq : (s.chan c).queue = hop :: rest) :
    Evaluated s (s.evaluate c keep) c hop rest keep := by
  have hof : s.offerHead c = s := by
    have hself : ((s.chan c).queue.isEmpty && (s.chan c).cfg.cycle && (s.chan c).cur.isSome) =
        (s.chan c).selfHead := by simp [hq, hs]
    unfold State.offerHead
    rw [hself]
    exact State.setChan_self s c
  have := evaluate_evaluated (s := s) (c := c) (hop := hop) (rest := rest) keep
    (by rw [hof]; exact .inl ⟨hs, hq⟩)
  rwa [hof] at this

/-- The evaluation of a new head in WAITING keeps the laws (R51). -/
theorem evaluate_waiting_engine (he : EngineSound s l k) (hst : (s.chan c).st = .waiting)
    (hq : (s.chan c).queue = hop :: rest) : EngineSound (s.evaluate c false) l k := by
  have hx := he.chan c
  have hs := hx.unoffered (by simp [hst])
  exact evaluated_engine (evaluate_head hs hq) (hx.evaluable (.inl hst) (.inl ⟨hs, hq⟩))
    (he.beside (by simp [hst])) he.notBoth (by simp)

/-! The dwell expiry. -/

/-- The dwell expiry keeps the laws (R54). -/
theorem expire_inside (he : s.Inside k) (hd : (s.chan c).expiryDue = true) : (s.expire c).Inside k := by
  simp only [Channel.expiryDue, Bool.and_eq_true, beq_iff_eq] at hd
  obtain ⟨⟨hst, hcur⟩, hd⟩ := hd
  have hx := he.chan c
  have hb := he.beside (c := c) (by simp [hst])
  have hr := hx.unready (by simp [hst])
  unfold State.expire
  cases hs : (s.chan c).stopAtEnd with
  | true => exact endingEntered_engine (enterEnding_entered s c .idle) (hx.endable hcur hr) hb
  | false => exact headRemoved_engine (afterRemoval_removed s c false) (hx.removable (.inl hst) hd hs hr) hb

/-! The gate's arrival. -/

/-- A head that is switched in, or made ready, under a CLOSED gate keeps the laws (R52, R59, R76). -/
theorem switchClosed_engine (he : EngineSound s l k) (hst : (s.chan c).st = .switching) :
    EngineSound (s.switchClosed c) l k := by
  unfold State.switchClosed
  cases ho : (s.chan c).offered with
  | none => exact he
  | some hop =>
    obtain ⟨rest, hof⟩ := Channel.offers_of_offered ho
    by_cases hp : hop.trigger = .paired
    · simp only [hp, if_true]
      exact readied_engine (becomeReady_readied s c) he (.inr (.inr hst)) hof hp
    · simp only [hp, if_false]
      exact started_engine (hopStart_started hof) ((he.chan c).startable (by simp [hst, ChanState.isEnding])) hof
        (he.beside (by simp [hst]))

/-- A gate's report of CLOSED keeps the laws (R97). -/
theorem gateReportsClosed_inside (he : s.Inside k) (hg : (s.chan c).gate.st = .closed) :
    (s.gateReportsClosed c).Inside k := by
  unfold State.gateReportsClosed
  cases hst : (s.chan c).st with
  | switching => exact switchClosed_engine he hst
  | ending dest => exact endingDone_engine (endingComplete_done hg hst) he hst hg
  | idle => exact he
  | loading => exact he
  | waiting => exact he
  | dwell => exact he
  | overstay => exact he

/-- A channel is the one changed or the other one. -/
theorem chan_cases {p : Chan → Prop} (c : Chan) (h1 : p c) (h2 : p (chanOther c)) (d : Chan) : p d := by
  cases c <;> cases d <;> assumption

/-- The pins are those of the entries: a channel that keeps its queue and its hop keeps them. -/
theorem State.PinsSound.congr (h : s.PinsSound) (hs : t.slots = s.slots)
    (hc : (t.chan c).queue = (s.chan c).queue ∧ (t.chan c).cur = (s.chan c).cur)
    (ho : t.chan (chanOther c) = s.chan (chanOther c)) : t.PinsSound := fun i => by
  obtain ⟨h1, h2⟩ := h i
  rw [pinsOn_sum _ c] at h1 ⊢
  rw [ho, Channel.pinsOn_eq (t.chan c), hc.1, hc.2, ← Channel.pinsOn_eq, State.slot, hs]
  exact ⟨h1, h2⟩

theorem moveGate_pins (h : s.PinsSound) (g : Gate) : (s.moveGate c g).PinsSound :=
  h.congr (moveGate_slots s c g) (by rw [moveGate_chan]; exact ⟨rfl, rfl⟩) (moveGate_other s c g)

theorem enter_pins (h : s.PinsSound) (st : ChanState) : (s.enter c st).PinsSound :=
  h.congr (enter_slots s c st) (by rw [enter_chan]; exact ⟨rfl, rfl⟩) (enter_other s c st)

/-- A gate that takes another lawful value under the same reasons of its engine keeps the laws. -/
theorem moveGate_inside (he : s.Inside k) (g : Gate) (hn : g.hold.noHop = (s.chan c).gate.hold.noHop)
    (hd : g.hold.ending = (s.chan c).gate.hold.ending) (hb : g.hold.blank = (s.chan c).gate.hold.blank)
    (hl : g.lawful = true) (hr : (s.chan c).cfg.ramp = 0 → g.st = .opened ∨ g.st = .closed)
    (hs : (s.chan c).cur = none → g.st = .closed) : (s.moveGate c g).Inside k := by
  have hx := he.chan c
  have hch := moveGate_chan s c g
  have hoth := moveGate_other s c g
  refine he.update c (moveGate_pins he.pins g) ?_ hoth (he.chan _) (by rw [hch]; exact he.load c)
    (by rw [hch]; exact he.notBoth)
  rw [hch]
  exact { hx with
      gate := hl
      ramp := hr
      noHop := by rw [hn]; exact hx.noHop
      shut := hs
      ending := by rw [hd]; exact hx.ending
      blank := by rw [hb]; exact hx.blank
      blankOnly := by rw [hb]; exact hx.blankOnly }

/-- The arrival of a moving gate at its target keeps the laws (R94). -/
theorem gateArrive_inside (he : s.Inside k) (ha : (s.chan c).gate.arrived = true) :
    (s.gateArrive c).Inside k := by
  have hl := (he.chan c).gate
  unfold State.gateArrive
  unfold Gate.arrived at ha
  cases hst : (s.chan c).gate.st with
  | closing =>
    simp only [hst, beq_iff_eq] at ha
    simp only [Gate.lawful, hst, Bool.and_eq_true] at hl
    refine gateReportsClosed_inside (moveGate_inside he _ rfl rfl rfl ?_ (fun _ => .inr rfl) fun _ => rfl) ?_
    · simpa [Gate.lawful, ha] using hl.1
    · rw [moveGate_gate]
  | opening =>
    simp only [hst, beq_iff_eq] at ha
    simp only [Gate.lawful, hst, Bool.and_eq_true] at hl
    refine moveGate_inside he _ rfl rfl rfl ?_ (fun _ => .inl rfl) fun h0 => ?_
    · simp only [Gate.lawful, ha, beq_self_eq_true, Bool.and_true]; exact hl.1
    · have := (he.chan c).shut h0
      simp [hst] at this
  | opened => exact he
  | closed => exact he

/-! The edge and the arrival of a TIME value. -/

theorem waitedOn_some (h : ch.waitedOn = some hop) :
    (ch.st = .waiting ∨ ch.st = .overstay) ∧ ch.offered = some hop := by
  unfold Channel.waitedOn at h
  cases hst : ch.st <;> simp [hst] at h <;> simp [h]

/-- A head waited on that is met keeps the laws (R55, R57). -/
theorem headMet_engine (he : EngineSound s l k) (hst : (s.chan c).st = .waiting ∨ (s.chan c).st = .overstay)
    (ho : (s.chan c).offered = some hop) (hp : hop.trigger ≠ .paired) : EngineSound (s.headMet c hop) l k := by
  obtain ⟨rest, hof⟩ := Channel.offers_of_offered ho
  exact met_engine (headMet_met hof hp) ((he.chan c).evaluable hst hof)
    (he.beside (by rcases hst with h0 | h0 <;> simp [h0])) he.notBoth

theorem meetEdge_inside (he : s.Inside k) : (s.meetEdge c).Inside k := by
  unfold State.meetEdge
  cases hw : (s.chan c).waitedOn with
  | none => exact he
  | some hop =>
    obtain ⟨hst, ho⟩ := waitedOn_some hw
    by_cases hl : hop.trigger = .line
    · simp only [hl, if_true]
      exact headMet_engine he hst ho (by simp [hl])
    · simpa only [hl, if_false] using he

/-- A change of what the laws do not read of a channel keeps them. -/
theorem setChan_inside (he : s.Inside k) (x : Channel) (hx : x.Sound false) (hq : ∀ i, x.pinsOn i = (s.chan c).pinsOn i)
    (hst : x.st = .loading ↔ k = some c) (hr : x.ready = true → (s.chan (chanOther c)).ready = false) :
    (s.setChan c x).Inside k :=
  he.update c (he.pins.setChan x hq) (by simpa using hx) (by simp) (he.chan _) (by simpa using hst)
    (by simpa using hr)

/-- The trigger edge keeps the laws (R55). -/
theorem takeEdge_inside (he : s.Inside k) : (s.takeEdge c).Inside k :=
  meetEdge_inside (setChan_inside he { s.chan c with edgeDue := false } { he.chan c with } (fun _ => rfl)
    (he.load c) he.notBoth)

/-- The arrival of a TIME value keeps the laws (R57). -/
theorem timeArrive_inside (he : s.Inside k) (hd : s.timeDue c = true) : (s.timeArrive c).Inside k := by
  unfold State.timeArrive
  unfold State.timeDue at hd
  cases hw : (s.chan c).waitedOn with
  | none => exact he
  | some hop =>
    obtain ⟨hst, ho⟩ := waitedOn_some hw
    simp only [hw, beq_iff_eq] at hd
    have hsame := sameEngine_settle s
    refine headMet_engine (hsame.engine he) ?_ ?_ (by simp [hd])
    · rw [hsame.chan]; exact hst
    · rw [hsame.chan]; exact ho

/-! The pair timer. -/

/-- What the expiry of the pair timer makes of its channel before anything is evaluated (R82). -/
def Channel.skipped (ch : Channel) (rest : List HopEntry) : Channel :=
  { ch with queue := rest, ready := false, timer := none,
            st := if ch.st = .switching then .overstay else ch.st }

/-- The state after the head is skipped, its report made, and SWITCHING left (R82, R83). -/
def State.headSkipped (s : State) (c : Chan) : State :=
  let s1 := ((s.withdraw c).skipHead c).report (.pairTimeout c ((s.chan c).offered.bind HopEntry.tag))
  if (s.chan c).st == .switching then s1.enter c .overstay else s1

theorem pairExpire_eq (s : State) (c : Chan) : s.pairExpire c =
    (if ((s.headSkipped c).chan c).cur.isSome then (s.headSkipped c).afterRemoval c ((s.chan c).st == .switching)
      else if ((s.headSkipped c).chan c).queue.isEmpty then s.headSkipped c
      else (s.headSkipped c).evaluate c false).dropBlank c := rfl

theorem headSkipped_chan (ho : (s.chan c).offers hop rest) :
    (s.headSkipped c).chan c = (s.chan c).skipped rest ∧
    (s.headSkipped c).chan (chanOther c) = s.chan (chanOther c) ∧
    ∀ i, (s.headSkipped c).slot i = if (s.chan c).selfHead = false ∧ i = hop.slot
      then { s.slot i with pins := (s.slot i).pins - 1 } else s.slot i := by
  have hskip : ((s.withdraw c).skipHead c).chan c =
        { s.chan c with queue := rest, ready := false, timer := none } ∧
      ((s.withdraw c).skipHead c).chan (chanOther c) = s.chan (chanOther c) ∧
      ∀ i, ((s.withdraw c).skipHead c).slot i = if (s.chan c).selfHead = false ∧ i = hop.slot
        then { s.slot i with pins := (s.slot i).pins - 1 } else s.slot i := by
    unfold State.skipHead State.withdraw
    rcases ho with ⟨h1, h2⟩ | ⟨h1, h2, h3⟩
    · simp only [State.setChan_chan_same, h1, h2, Bool.false_eq_true, if_false, List.head?_cons, Option.map_some,
        State.unpinOpt, List.tail_cons, State.setChan_chan_other]
      refine ⟨trivial, ?_, fun i => ?_⟩
      · cases c <;> rfl
      · rw [State.setChan_slot, unpin_slot]
        by_cases hi : i = hop.slot <;> simp [hi]
    · simp [h1, h3]
  obtain ⟨h1, h2, h3⟩ := hskip
  unfold State.headSkipped
  by_cases hst : (s.chan c).st = .switching
  · simp only [hst, beq_self_eq_true, if_true]
    refine ⟨?_, ?_, fun i => ?_⟩
    · rw [enter_chan, State.report_chan, h1]; simp [Channel.skipped, hst]
    · rw [enter_other, State.report_chan, h2]
    · rw [State.slot, enter_slots]; exact h3 i
  · have : ((s.chan c).st == .switching) = false := by simpa using hst
    simp only [this, Bool.false_eq_true, if_false]
    refine ⟨?_, by simpa using h2, by simpa using h3⟩
    rw [State.report_chan, h1]; simp [Channel.skipped, hst]

/-- The head skipped gives its pin back (R5, R82). -/
theorem headSkipped_pins (ho : (s.chan c).offers hop rest) (hp : s.PinsSound) : (s.headSkipped c).PinsSound := by
  obtain ⟨hch, hoth, hslot⟩ := headSkipped_chan ho
  intro i
  obtain ⟨h1, h2⟩ := hp i
  have hnew : ((s.chan c).skipped rest).pinsOn i + (if (s.chan c).selfHead = false ∧ i = hop.slot then 1 else 0) =
      (s.chan c).pinsOn i := by
    rw [Channel.pinsOn_eq, Channel.pinsOn_eq]
    rcases ho with ⟨ha, hb⟩ | ⟨ha, -, hb⟩
    · rw [hb, entryPins_cons hop rest, entryPins_single]
      by_cases hi : i = hop.slot
      · subst hi; simp [Channel.skipped, ha]; omega
      · simp [Channel.skipped, ha, hi, Ne.symm hi]
    · simp [Channel.skipped, ha, hb]
  rw [pinsOn_sum s c] at h1
  rw [pinsOn_sum _ c, hch, hoth, hslot]
  split
  · rename_i hr
    rw [if_pos hr] at hnew
    exact ⟨by simp only; omega, fun h0 => h2 (by simp only at h0; omega)⟩
  · rename_i hr
    rw [if_neg hr] at hnew
    exact ⟨by omega, h2⟩

/-- A ready channel past its skipped head keeps the laws with BLANK let loose (R82, R83). -/
theorem skipped_sound (hx : ch.Sound false) (hr : ch.ready = true) (ho : ch.offers hop rest) :
    (ch.skipped rest).Sound true ∧ ((ch.skipped rest).st = .waiting ∨ (ch.skipped rest).st = .overstay) := by
  obtain ⟨hwait, -⟩ := hx.ready hr
  have hlen : rest.length ≤ ch.queue.length := by
    rcases ho with ⟨-, h2⟩ | ⟨-, -, h2⟩ <;> simp [h2]
  have hst : (ch.skipped rest).st = .waiting ∨ (ch.skipped rest).st = .overstay := by
    rcases hwait with h | h | h <;> simp [Channel.skipped, h]
  refine ⟨{ hx with
    ending := ?_, blank := ?_, blankOnly := by simp, hop := ?_, dwell := .inr (.inr ?_), stop := ?_, room := ?_
    self := ?_, ready := fun h0 => by simp [Channel.skipped] at h0, timer := fun h0 => by simp [Channel.skipped] at h0 },
    hst⟩
  · have := hx.ending
    rcases hwait with h | h | h <;> simpa [Channel.skipped, h, ChanState.isEnding] using this
  · intro h0; rcases hst with h | h <;> simp [h] at h0
  · have := hx.hop
    rcases hwait with h | h | h <;> simpa [Channel.skipped, h, ChanState.holdsHop] using this
  · rcases hx.dwell with h | h | h
    · simp [h] at hwait
    · rcases hwait with h' | h' | h' <;> simp [h', ChanState.isEnding] at h
    · exact h
  · intro h0
    have := hx.stop h0
    simp [this] at hwait
  · have := hx.room
    show rest.length + _ ≤ 64
    exact le_trans (Nat.add_le_add_right hlen _) this
  · intro h0
    obtain ⟨h1, h2⟩ := hx.self h0
    exact ⟨h1, .inl (by rcases h2 with h | h <;> simp [Channel.skipped, h])⟩

/-- The expiry of the pair timer keeps the laws (R82, R83). -/
theorem pairExpire_inside (he : s.Inside k) (hd : (s.chan c).pairExpiryDue = true) :
    (s.pairExpire c).Inside k := by
  simp only [Channel.pairExpiryDue, Bool.and_eq_true] at hd
  obtain ⟨hr, -⟩ := hd
  obtain ⟨hop, rest, ho, -⟩ := (he.chan c).ready_offers hr
  obtain ⟨hch, hoth, -⟩ := headSkipped_chan ho
  obtain ⟨hws, hst⟩ := skipped_sound (he.chan c) hr ho
  have hnl : ((s.headSkipped c).chan c).st ≠ .loading := by rw [hch]; rcases hst with h | h <;> simp [h]
  have hnr : ((s.headSkipped c).chan c).ready = false := by rw [hch]; rfl
  have hk : k ≠ some c := fun h0 => by
    have := (he.load c).mpr h0
    obtain ⟨hwait, -⟩ := (he.chan c).ready hr
    simp [this] at hwait
  have hwe : EngineSound (s.headSkipped c) (fun d => decide (d = c)) k :=
    he.update c (headSkipped_pins ho he.pins) (by rw [hch]; simpa using hws) hoth
      ((he.chan _).loosen _) ⟨fun h0 => absurd h0 hnl, fun h0 => absurd h0 hk⟩ fun h0 => by simp [hnr] at h0
  have hx := hwe.chan c
  rw [pairExpire_eq]
  refine blankDropped_engine (dropBlank_dropped _ c) (l := fun d => decide (d = c)) ?_ (by simp)
  have hover (hc : ((s.headSkipped c).chan c).cur.isSome = true) :
      ((s.headSkipped c).chan c).st = .overstay := by
    rw [hch] at hc ⊢
    rcases hst with h | h
    · have := hws.hop
      rw [hc, h] at this
      simp [ChanState.holdsHop] at this
    · exact h
  have hwait (hc : ((s.headSkipped c).chan c).cur.isSome = false) :
      ((s.headSkipped c).chan c).st = .waiting := by
    rw [hch] at hc ⊢
    rcases hst with h | h
    · exact h
    · have := hws.hop
      rw [hc, h] at this
      simp [ChanState.holdsHop] at this
  cases hc : ((s.headSkipped c).chan c).cur.isSome with
  | true =>
    have hov := hover hc
    refine headRemoved_engine (afterRemoval_removed _ c _) (hx.removable (.inr hov) ?_ ?_ hnr) (hwe.beside hnl)
    · rcases hx.dwell with h | h | h
      · simp [hov] at h
      · simp [hov, ChanState.isEnding] at h
      · exact h
    · exact hx.unstopped (by simp [hov])
  | false =>
    cases hq : ((s.headSkipped c).chan c).queue with
    | nil => simpa using hwe
    | cons next more =>
      simp only [List.isEmpty_cons, Bool.false_eq_true, if_false]
      exact evaluate_waiting_engine hwe (hwait hc) hq

end Sys2Proof.Machine
end

section
/-! The changes of the HOST and LINE reasons, and the requests of the channels, keep the laws of what the hop engine
touches. -/

namespace Sys2Proof.Machine

variable {s t w : State} {c : Chan} {hop : HopEntry} {rest : List HopEntry} {l : Chan → Bool}
  {k : Option Chan} {o : Bool} {ch : Channel}

/-! Changes of the HOST and LINE reasons. -/

/-- R77 asks for BLANK in the event that would empty the hold set. -/
def State.keepsBlank (s : State) (c : Chan) (h : HoldSet) : Bool :=
  (s.chan c).readyBlankOverstay && !(s.chan c).gate.hold.isEmpty && h.isEmpty

/-- A gate that enters CLOSED had an empty hold set. -/
theorem gate_move_closes {g : Gate} {ramp : Nat} {h : HoldSet} (hg : g.lawful = true) (hs : g.st ≠ .closed)
    (hc : (g.move ramp h).st = .closed) : g.hold.isEmpty = true := by
  obtain ⟨-, -, h3, -, h5⟩ := gate_move_left hg ramp h
  cases hh : g.hold.isEmpty with
  | true => rfl
  | false =>
    cases he : h.isEmpty with
    | false => exact absurd ((h3 (by rw [hh, he])).1 ▸ hc) hs
    | true =>
      rw [(h5 hh he).1] at hc
      split at hc <;> simp at hc

/-- A change of the HOST or LINE reason moves the gate, where R77 asks for nothing and no CLOSED gate is reported to
an engine that waits for it. -/
theorem changeHold_plain {h : HoldSet} (hg : (s.chan c).gate.lawful = true)
    (hst : ((s.chan c).st ≠ .switching ∧ (s.chan c).st.isEnding = false) ∨
      (s.chan c).gate.hold.isEmpty = false) (hk : s.keepsBlank c h = false) :
    s.changeHold c h = s.applyHold c h := by
  unfold State.keepsBlank at hk
  unfold State.changeHold
  simp only [hk, Bool.false_eq_true, if_false]
  split
  · rename_i hc
    simp only [State.gateClosed, applyHold_chan, Bool.and_eq_true, beq_iff_eq, Bool.not_eq_true',
      beq_eq_false_iff_ne] at hc
    have he := gate_move_closes hg hc.2 hc.1
    have hst' : (s.chan c).st ≠ .switching ∧ (s.chan c).st.isEnding = false := by
      rcases hst with h0 | h0
      · exact h0
      · simp [he] at h0
    unfold State.gateReportsClosed
    rw [applyHold_chan]
    cases h0 : (s.chan c).st <;> simp [h0, ChanState.isEnding] at hst' <;> rfl
  · rfl

/-- Where R77 asks for it, BLANK joins the hold set and the channel enters SWITCHING. -/
theorem changeHold_blank {h : HoldSet} (hk : s.keepsBlank c h = true) :
    s.changeHold c h = (s.applyHold c { h with blank := true }).enter c .switching := by
  unfold State.keepsBlank at hk
  unfold State.changeHold
  simp only [hk, if_true]

/-- After the hold set has changed, the moves of the hop engine follow. -/
theorem changeHold_moves (s : State) (c : Chan) (h : HoldSet) :
    ∃ b, EngineMoves (s.applyHold c { h with blank := b }) (s.changeHold c h) := by
  rcases EngineMoves.changeHold_after (s := s) c h with h0 | h0
  · exact ⟨h.blank, h0⟩
  · exact ⟨true, h0⟩

/-- What a change of the HOST or LINE reason does and leaves. -/
structure HoldChanged (s t : State) (c : Chan) (h : HoldSet) : Prop where
  own : (t.chan c).cfg = (s.chan c).cfg ∧ (t.chan c).gate.hold.host = h.host ∧
    (t.chan c).gate.hold.line = h.line
  other : (s.chan (chanOther c)).SameSetup (t.chan (chanOther c))
  slot : ∀ i, (t.slot i).tone = (s.slot i).tone ∧ (t.slot i).reserved = (s.slot i).reserved
  store : t.store = s.store
  loader : t.loader = s.loader
  link : t.link = s.link
  gateLine : t.gateLine = s.gateLine
  holders : s.reports.SameHolders t.reports
  epoch : s.epoch.Settles t.epoch

theorem applyHold_sameHolders (s : State) (c : Chan) (h : HoldSet) :
    s.reports.SameHolders (s.applyHold c h).reports := by
  rw [applyHold_reports]
  split
  · exact .rfl' _
  · exact make_sameHolders _ rfl

theorem changeHold_changed (s : State) (c : Chan) (h : HoldSet) : HoldChanged s (s.changeHold c h) c h := by
  obtain ⟨b, m⟩ := changeHold_moves s c h
  have hc := m.setup c
  have ho := m.setup (chanOther c)
  rw [applyHold_chan] at hc
  rw [applyHold_other] at ho
  exact {
    own := ⟨hc.cfg, hc.host, hc.line⟩
    other := ho
    slot := fun i => by have := m.slot i; simpa only [State.slot, applyHold_slots] using this
    store := by rw [m.store]; simp
    loader := by rw [m.loader]; simp
    link := by rw [m.link]; simp
    gateLine := by rw [m.gateLine]; simp
    holders := (applyHold_sameHolders s c _).trans m.holders
    epoch := by simpa using m.epoch }

/-- Only HOST and LINE differ. -/
structure HoldSet.SameEngine (h h' : HoldSet) : Prop where
  noHop : h'.noHop = h.noHop
  ending : h'.ending = h.ending
  blank : h'.blank = h.blank

/-- A change of the HOST or LINE reason keeps the laws of what the hop engine touches (R77, R100, R101). -/
theorem changeHold_inside (he : s.Inside k) {h : HoldSet} (hh : (s.chan c).gate.hold.SameEngine h) :
    (s.changeHold c h).Inside k := by
  have hx := he.chan c
  have hshut (h' : HoldSet) (hn : h'.noHop = (s.chan c).gate.hold.noHop) (h0 : (s.chan c).cur = none) :
      ((s.chan c).gate.move (s.chan c).cfg.ramp h').st = .closed :=
    gate_move_shut (hx.shut h0) _ (by simp [HoldSet.isEmpty, hn, hx.noHop, h0])
  have hleft (h' : HoldSet) := gate_move_left hx.gate (s.chan c).cfg.ramp h'
  cases hk : s.keepsBlank c h with
  | false =>
    have hst : ((s.chan c).st ≠ .switching ∧ (s.chan c).st.isEnding = false) ∨
        (s.chan c).gate.hold.isEmpty = false := by
      by_cases h0 : (s.chan c).st = .switching
      · exact .inr (by simp [HoldSet.isEmpty, hx.blank h0])
      · cases h1 : (s.chan c).st.isEnding with
        | false => exact .inl ⟨h0, rfl⟩
        | true => exact .inr (by simp [HoldSet.isEmpty, hx.ending, h1])
    rw [changeHold_plain hx.gate hst hk]
    exact moveGate_inside he _ hh.noHop hh.ending hh.blank (gateLeft_lawful hx.gate (hleft h))
      (gateLeft_still (hleft h) hx.ramp) (hshut h hh.noHop)
  | true =>
    rw [changeHold_blank hk]
    simp only [State.keepsBlank, Channel.readyBlankOverstay, Bool.and_eq_true, beq_iff_eq] at hk
    obtain ⟨⟨⟨⟨hov, hr⟩, -⟩, -⟩, -⟩ := hk
    have hcur : (s.chan c).cur.isSome = true := by rw [hx.hop, hov]; rfl
    have hch : ((s.applyHold c { h with blank := true }).enter c .switching).chan c =
        { s.chan c with st := .switching,
                        gate := (s.chan c).gate.move (s.chan c).cfg.ramp { h with blank := true } } := by rw [enter_chan, applyHold_chan]
    refine he.update c (enter_pins (moveGate_pins he.pins _) _) ?_ (by rw [enter_other, applyHold_other]) (he.chan _)
      ?_ ?_
    · rw [hch]
      exact { hx with
        gate := gateLeft_lawful hx.gate (hleft _)
        ramp := gateLeft_still (hleft _) hx.ramp
        noHop := hh.noHop.trans hx.noHop
        shut := hshut _ hh.noHop
        ending := by
          have := hx.ending
          rw [hov] at this
          exact hh.ending.trans this
        blank := fun _ => rfl
        blankOnly := fun _ _ => rfl
        hop := hcur
        dwell := .inr (.inr (by
          rcases hx.dwell with h0 | h0 | h0
          · simp [hov] at h0
          · simp [hov, ChanState.isEnding] at h0
          · exact h0))
        stop := fun h0 => absurd (hx.stop h0) (by simp [hov])
        self := fun h0 => ⟨(hx.self h0).1, .inr rfl⟩
        ready := fun h0 => ⟨.inr (.inr rfl), (hx.ready h0).2⟩ }
    · rw [hch]
      have := he.load c
      rw [hov] at this
      simpa using this
    · rw [hch]; exact he.notBoth

/-! START and STOP. -/

/-- A change of channel state keeps the laws where the channel keeps its own. -/
theorem enter_inside (he : s.Inside k) (st : ChanState) (hx : ({ s.chan c with st := st } : Channel).Sound false)
    (hl : st = .loading ↔ k = some c) (hr : (s.chan c).ready = true → (s.chan (chanOther c)).ready = false) :
    (s.enter c st).Inside k := by
  have hch := enter_chan s c st
  exact he.update c (enter_pins he.pins st) (by rw [hch]; exact hx) (enter_other s c st) (he.chan _)
    (by rw [hch]; exact hl) (by rw [hch]; exact hr)

/-- The end of a readiness keeps the laws (R80). -/
theorem withdraw_inside (he : s.Inside k) : (s.withdraw c).Inside k :=
  setChan_inside he _ { he.chan c with ready := fun h0 => by simp at h0, timer := fun h0 => by simp at h0 }
    (fun _ => rfl) (he.load c) fun h0 => by simp at h0

/-- A lawful channel without a hop is lawful in any state without one. -/
theorem Channel.Sound.resting (h : ch.Sound false) (hst : ch.st.holdsHop = false) (hr : ch.ready = false)
    (st : ChanState) (hst' : st.holdsHop = false) : ({ ch with st := st } : Channel).Sound false :=
  have hend : ∀ st : ChanState, st.holdsHop = false →
      st.isEnding = false ∧ st ≠ .switching ∧ st ≠ .overstay ∧ st ≠ .dwell := fun st h0 => by
    cases st <;> simp [ChanState.holdsHop] at h0 <;> simp [ChanState.isEnding]
  have hold := hend _ hst
  have hnew := hend _ hst'
  { h with
    ending := by rw [h.ending, hold.1]; exact hnew.1.symm
    blank := fun h0 => absurd h0 hnew.2.1
    blankOnly := fun h0 h1 => absurd (h.blankOnly h0 h1) hold.2.1
    hop := by rw [h.hop, hst]; exact hst'.symm
    dwell := .inr (.inr (by
      rcases h.dwell with h0 | h0 | h0
      · exact absurd h0 hold.2.2.2
      · simp [hold.1] at h0
      · exact h0))
    stop := fun h0 => absurd (h.stop h0) hold.2.2.2
    self := fun h0 => by
      rcases (h.self h0).2 with h1 | h1
      · exact absurd h1 hold.2.2.1
      · exact absurd h1 hold.2.1
    ready := fun h0 => by simp [hr] at h0
    timer := fun h0 => by simp [h.timer_none hr] at h0 }

/-- A channel that rests and is started evaluates the head of its queue and keeps the laws (R66). -/
theorem startChannel_inside {k' : Option Chan} (he : s.Inside k) (hst : (s.chan c).st = .idle ∨ (s.chan c).st = .loading)
    (hk : k = some (chanOther c) ↔ k' = some (chanOther c)) (hk' : k' ≠ some c) :
    (s.startChannel c).Inside k' := by
  have hx := he.chan c
  have hr := hx.unready (by rcases hst with h0 | h0 <;> simp [h0])
  have hstop := hx.unstopped (by rcases hst with h0 | h0 <;> simp [h0])
  have hsame : s.setChan c { s.chan c with stopAtEnd := false } = s := by
    rw [← hstop]; exact State.setChan_self s c
  have hch := enter_chan s c .waiting
  have hw : (s.enter c .waiting).Inside k' := by
    refine he.rekey c (enter_pins he.pins _) ?_ (enter_other s c .waiting) (he.chan _) hk ?_ ?_
    · rw [hch]
      exact hx.resting (by rcases hst with h0 | h0 <;> rw [h0] <;> rfl) hr .waiting rfl
    · rw [hch]; exact ⟨fun h0 => by simp at h0, fun h0 => absurd h0 hk'⟩
    · rw [hch]; intro h0; exact absurd h0 (by simp [hr])
  unfold State.startChannel
  simp only [hsame]
  cases hq : ((s.enter c .waiting).chan c).queue with
  | nil => simpa using hw
  | cons hop rest =>
    simp only [List.isEmpty_cons, Bool.false_eq_true, if_false]
    exact evaluate_waiting_engine hw (by rw [hch]) hq

/-- The entry into ENDING keeps the laws (R63). -/
theorem enterEnding_inside (he : s.Inside k) (dest : EndDest) (hc : (s.chan c).cur.isSome = true)
    (hr : (s.chan c).ready = false) : (s.enterEnding c dest).Inside k := by
  refine endingEntered_engine (enterEnding_entered s c dest) ((he.chan c).endable hc hr) (he.beside ?_)
  intro h0
  have := (he.chan c).hop
  rw [hc, h0] at this
  simp [ChanState.holdsHop] at this

/-- STOP keeps the laws (R67, R68). -/
theorem stopChannel_inside (he : s.Inside k) (now : Bool) : (s.stopChannel c now).Inside k := by
  have hx := he.chan c
  have hk (h0 : (s.chan c).st ≠ .loading) : k ≠ some c := fun h1 => h0 ((he.load c).mpr h1)
  unfold State.stopChannel
  cases hst : (s.chan c).st with
  | idle => exact he
  | loading => exact he
  | waiting =>
    have hw := withdraw_inside (c := c) he
    have hrd : ((s.withdraw c).chan c).ready = false := by simp [State.withdraw]
    have hws : ((s.withdraw c).chan c).st = .waiting := by simpa [State.withdraw] using hst
    refine enter_inside hw .idle ?_ ⟨fun h0 => by simp at h0, fun h0 => absurd h0 (hk (by simp [hst]))⟩
      fun h0 => by simp [hrd] at h0
    exact (hw.chan c).resting (by rw [hws]; rfl) hrd .idle rfl
  | dwell =>
    cases now with
    | true =>
      exact enterEnding_inside he .idle (by rw [hx.hop, hst]; rfl) (hx.unready (by simp [hst]))
    | false =>
      exact setChan_inside he _ { hx with stop := fun _ => hst } (fun _ => rfl) (he.load c) he.notBoth
  | overstay =>
    exact enterEnding_inside (withdraw_inside he) .idle
      (by simp [State.withdraw, hx.hop, hst, ChanState.holdsHop]) (by simp [State.withdraw])
  | switching =>
    exact enterEnding_inside (withdraw_inside he) .idle
      (by simp [State.withdraw, hx.hop, hst, ChanState.holdsHop]) (by simp [State.withdraw])
  | ending dest =>
    cases dest with
    | idle => exact he
    | waiting =>
      have hrd := hx.unready (by simp [hst])
      refine enter_inside he _ ?_ ⟨fun h0 => by simp at h0, fun h0 => absurd h0 (hk (by simp [hst]))⟩
        fun h0 => by simp [hrd] at h0
      exact { hx with
        ending := by have := hx.ending; rw [hst] at this; exact this
        blank := fun h0 => by simp at h0
        blankOnly := fun h0 h1 => by have := hx.blankOnly h0 h1; simp [hst] at this
        hop := by have := hx.hop; rw [hst] at this; exact this
        dwell := .inr (.inl rfl)
        stop := fun h0 => by have := hx.stop h0; simp [hst] at this
        self := fun h0 => by have := (hx.self h0).2; simp [hst] at this
        ready := fun h0 => absurd h0 (by simp [hrd]) }

end Sys2Proof.Machine
end

section
/-! The requests of the queues and the sample period keep the laws of what the hop engine touches. -/

namespace Sys2Proof.Machine

variable {s t w : State} {c : Chan} {hop : HopEntry} {rest : List HopEntry} {l : Chan → Bool}
  {k : Option Chan} {o : Bool} {ch : Channel}

/-! HOP_APPEND. -/

/-- The entries join the tail and pin their slots (R26, R31). -/
def State.joined (s : State) (c : Chan) (es : List HopEntry) : State :=
  (s.setChan c { s.chan c with queue := (s.chan c).queue ++ es }).pinAll es

theorem appendEntries_eq (s : State) (c : Chan) (es : List HopEntry) : s.appendEntries c es =
    if (s.chan c).queue.isEmpty &&
      ((s.chan c).st == .waiting || ((s.chan c).st == .overstay && !(s.chan c).selfHead))
    then (s.joined c es).evaluate c false else s.joined c es := rfl

theorem joined_chan (s : State) (c : Chan) (es : List HopEntry) :
    (s.joined c es).chan c = { s.chan c with queue := (s.chan c).queue ++ es } ∧
      (s.joined c es).chan (chanOther c) = s.chan (chanOther c) := by
  unfold State.joined
  constructor <;> rw [pinAll_chan] <;> simp

theorem joined_slot (s : State) (c : Chan) (es : List HopEntry) (i : Fin 48) :
    (s.joined c es).slot i = { s.slot i with pins := (s.slot i).pins + es.countP fun e => e.slot == i } := by
  unfold State.joined
  rw [pinAll_slot, State.setChan_slot]

/-- Entries that name LOADED slots join with their pins (R5). -/
theorem joined_pins (hp : s.PinsSound) {es : List HopEntry}
    (hl : ∀ e ∈ es, (s.slot e.slot).tone.isSome = true) : (s.joined c es).PinsSound := fun i => by
  obtain ⟨h1, h2⟩ := hp i
  obtain ⟨hch, hoth⟩ := joined_chan s c es
  have hq : entryPins ((s.chan c).queue ++ es) i = entryPins (s.chan c).queue i + es.countP fun e => e.slot == i :=
    entryPins_append _ _ i
  rw [pinsOn_sum s c, Channel.pinsOn_eq (s.chan c)] at h1
  rw [pinsOn_sum _ c, hch, hoth, joined_slot, Channel.pinsOn_eq]
  refine ⟨by simp only [hq]; omega, fun h0 => ?_⟩
  by_cases hi : 0 < (s.slot i).pins
  · exact h2 hi
  · have : 0 < es.countP fun e => e.slot == i := by simp only at h0; omega
    obtain ⟨e, he, hs⟩ := List.countP_pos_iff.mp this
    have := hl e he
    rwa [beq_iff_eq.mp hs] at this

/-- A channel that has taken entries keeps its laws while there is room (R24, R29). -/
theorem Channel.Sound.append (h : ch.Sound o) {es : List HopEntry}
    (hr : ch.queue.length + es.length + (ch.cfg.cycle && ch.cur.isSome).toNat ≤ 64) :
    ({ ch with queue := ch.queue ++ es } : Channel).Sound o :=
  { h with
    room := by simpa using hr
    ready := fun h0 => by
      obtain ⟨h1, h2⟩ := h.ready h0
      refine ⟨h1, ?_⟩
      unfold Channel.offered at h2 ⊢
      cases hs : ch.selfHead with
      | true => simpa [hs] using h2
      | false =>
        cases hq : ch.queue with
        | nil => simp [hs, hq] at h2
        | cons e q => simpa [hs, hq] using h2 }

theorem joined_inside (he : s.Inside k) {es : List HopEntry}
    (hr : (s.chan c).queue.length + es.length + ((s.chan c).cfg.cycle && (s.chan c).cur.isSome).toNat ≤ 64)
    (hl : ∀ e ∈ es, (s.slot e.slot).tone.isSome = true) : (s.joined c es).Inside k := by
  obtain ⟨hch, hoth⟩ := joined_chan s c es
  exact he.update c (joined_pins he.pins hl) (by rw [hch]; exact (he.chan c).append hr) hoth (he.chan _)
    (by rw [hch]; exact he.load c) (by rw [hch]; exact he.notBoth)

/-- HOP_APPEND's entries keep the laws, the evaluation of a new head among them (R31, R32). -/
theorem appendEntries_inside (he : s.Inside k) {es : List HopEntry} (hne : es ≠ []) (hst : (s.chan c).st ≠ .loading)
    (hr : (s.chan c).queue.length + es.length + ((s.chan c).cfg.cycle && (s.chan c).cur.isSome).toNat ≤ 64)
    (hl : ∀ e ∈ es, (s.slot e.slot).tone.isSome = true) : (s.appendEntries c es).Inside k := by
  obtain ⟨hch, -⟩ := joined_chan s c es
  have hj : (s.joined c es).Inside k := joined_inside he hr hl
  rw [appendEntries_eq]
  split
  · rename_i hc
    simp only [Bool.and_eq_true, Bool.or_eq_true, beq_iff_eq, Bool.not_eq_true', List.isEmpty_iff] at hc
    obtain ⟨hq, hw⟩ := hc
    have hself : (s.chan c).selfHead = false := by
      rcases hw with h0 | h0
      · exact (he.chan c).unoffered (by simp [h0])
      · exact h0.2
    have hwait : (s.chan c).st = .waiting ∨ (s.chan c).st = .overstay := hw.imp_right And.left
    cases hes : es with
    | nil => exact absurd hes hne
    | cons hop rest =>
      have hq' : ((s.joined c es).chan c).queue = hop :: rest := by rw [hch, hq, hes]; rfl
      have hs' : ((s.joined c es).chan c).selfHead = false := by rw [hch]; exact hself
      have hw' : ((s.joined c es).chan c).st = .waiting ∨ ((s.joined c es).chan c).st = .overstay := by
        rw [hch]; exact hwait
      rw [← hes]
      exact evaluated_engine (evaluate_head hs' hq') ((hj.chan c).evaluable hw' (.inl ⟨hs', hq'⟩))
        (hj.beside (by rw [hch]; exact hst)) hj.notBoth (by simp)
  · exact hj

/-! HOP_FLUSH. -/

theorem emptyQueue_chan (s : State) (c : Chan) :
    (s.emptyQueue c).chan c = { s.chan c with queue := [] } ∧
      (s.emptyQueue c).chan (chanOther c) = s.chan (chanOther c) := by
  unfold State.emptyQueue
  simp [unpinAll_chan]

theorem emptyQueue_slot (s : State) (c : Chan) (i : Fin 48) : (s.emptyQueue c).slot i =
    { s.slot i with pins := (s.slot i).pins - entryPins (s.chan c).queue i } := by
  unfold State.emptyQueue
  rw [State.setChan_slot, unpinAll_slot]
  rfl

/-- The entries that leave the queue give their pins back (R5, R33). -/
theorem emptyQueue_pins (hp : s.PinsSound) : (s.emptyQueue c).PinsSound := fun i => by
  obtain ⟨h1, h2⟩ := hp i
  obtain ⟨hch, hoth⟩ := emptyQueue_chan s c
  rw [pinsOn_sum s c, Channel.pinsOn_eq (s.chan c)] at h1
  rw [pinsOn_sum _ c, hch, hoth, Channel.pinsOn_eq]
  rw [emptyQueue_slot]
  exact ⟨by simp only [entryPins_nil]; omega, fun h0 => h2 (by simp only at h0; omega)⟩

/-- A channel whose queue has been emptied keeps its laws where it was not ready on an entry that left. -/
theorem Channel.Sound.emptied (h : ch.Sound o) (hr : ch.ready = false ∨ ch.selfHead = true) :
    ({ ch with queue := [] } : Channel).Sound o :=
  { h with
    room := by have := h.room; simp only [List.length_nil]; omega
    ready := fun h0 => by
      obtain ⟨h1, h2⟩ := h.ready h0
      rcases hr with h3 | h3
      · simp [h3] at h0
      · refine ⟨h1, ?_⟩
        unfold Channel.offered at h2 ⊢
        simpa [h3] using h2 }

theorem emptyQueue_inside (he : s.Inside k) (hr : (s.chan c).ready = false ∨ (s.chan c).selfHead = true) :
    (s.emptyQueue c).Inside k := by
  obtain ⟨hch, hoth⟩ := emptyQueue_chan s c
  exact he.update c (emptyQueue_pins he.pins) (by rw [hch]; exact (he.chan c).emptied hr) hoth (he.chan _)
    (by rw [hch]; exact he.load c) (by rw [hch]; exact he.notBoth)

/-- A queue emptied and the readiness withdrawn (R35, R69, R80). -/
theorem emptyQueue_withdraw_chan (s : State) (c : Chan) :
    ((s.emptyQueue c).withdraw c).chan c = { s.chan c with queue := [], ready := false, timer := none } ∧
      ((s.emptyQueue c).withdraw c).chan (chanOther c) = s.chan (chanOther c) := by
  obtain ⟨hch, hoth⟩ := emptyQueue_chan s c
  unfold State.withdraw
  simp [hch, hoth]

theorem emptyQueue_withdraw_pins (hp : s.PinsSound) : ((s.emptyQueue c).withdraw c).PinsSound :=
  (emptyQueue_pins hp).setChan _ fun _ => rfl

theorem Channel.Sound.emptied_withdrawn (h : ch.Sound o) :
    ({ ch with queue := [], ready := false, timer := none } : Channel).Sound o :=
  { h with
    room := by have := h.room; simp only [List.length_nil]; omega
    ready := fun h0 => by simp at h0
    timer := fun h0 => by simp at h0 }

theorem emptyQueue_withdraw_inside (he : s.Inside k) : ((s.emptyQueue c).withdraw c).Inside k := by
  obtain ⟨hch, hoth⟩ := emptyQueue_withdraw_chan s c
  exact he.update c (emptyQueue_withdraw_pins he.pins) (by rw [hch]; exact (he.chan c).emptied_withdrawn) hoth
    (he.chan _) (by rw [hch]; exact he.load c) fun h0 => by rw [hch] at h0; simp at h0

/-- A channel in OVERSTAY or SWITCHING has no dwell left. -/
theorem Channel.Sound.expired (h : ch.Sound o) (hst : ch.st = .overstay ∨ ch.st = .switching) : ch.dwell = 0 := by
  rcases h.dwell with h1 | h1 | h1
  · simp [h1] at hst
  · rcases hst with h2 | h2 <;> simp [h2, ChanState.isEnding] at h1
  · exact h1

/-- A flush in OVERSTAY on the channel's own current hop evaluates that hop again (R36, R38). -/
theorem flush_overstay_self (he : s.Inside k) (hc : (s.chan c).st = .overstay) (hs : (s.chan c).selfHead = true) :
    ((s.emptyQueue c).evaluate c false).Inside k := by
  have hx := he.chan c
  obtain ⟨hch, -⟩ := emptyQueue_chan s c
  have hes := emptyQueue_inside he (.inr hs)
  have hec := hes.chan c
  obtain ⟨hcy, -⟩ := hx.self hs
  obtain ⟨old, hcur⟩ := Option.isSome_iff_exists.mp (show (s.chan c).cur.isSome = true by rw [hx.hop, hc]; rfl)
  have hof : (s.emptyQueue c).offerHead c = s.emptyQueue c := by
    have : ((s.emptyQueue c).chan c).selfHead = true := by rw [hch]; exact hs
    have hself : (((s.emptyQueue c).chan c).queue.isEmpty && ((s.emptyQueue c).chan c).cfg.cycle &&
      ((s.emptyQueue c).chan c).cur.isSome) = ((s.emptyQueue c).chan c).selfHead := by
        rw [this, hch]; simp [hcy, hcur]
    unfold State.offerHead
    rw [hself]
    exact State.setChan_self _ c
  have ho : ((s.emptyQueue c).chan c).offers old [] := by rw [hch]; exact .inr ⟨hs, hcur, rfl⟩
  have hev := evaluate_evaluated (s := s.emptyQueue c) (c := c) false (by rw [hof]; exact ho)
  rw [hof] at hev
  exact evaluated_engine hev (hec.evaluable (.inr (by rw [hch]; exact hc)) ho)
    (hes.beside (by rw [hch]; simp [hc])) hes.notBoth (by simp)

/-- A flush in OVERSTAY on a head of the queue removes that head (R36). -/
theorem flush_overstay_head (he : s.Inside k) (hc : (s.chan c).st = .overstay) :
    ((((s.emptyQueue c).withdraw c).dropCycleEdge c).afterRemoval c false).Inside k := by
  have hx := he.chan c
  have hwi := emptyQueue_withdraw_inside (c := c) he
  obtain ⟨hwc, -⟩ := emptyQueue_withdraw_chan s c
  have hd : (((s.emptyQueue c).withdraw c).dropCycleEdge c).Inside k :=
    setChan_inside hwi _ { hwi.chan c with } (fun _ => rfl) (hwi.load c) hwi.notBoth
  have hdc : (((s.emptyQueue c).withdraw c).dropCycleEdge c).chan c =
      { s.chan c with queue := [], ready := false, timer := none,
                      edgeDue := ((s.chan c).edgeDue && !(s.chan c).cfg.cycle) } := by
    simp [State.dropCycleEdge, hwc]
  refine headRemoved_engine (afterRemoval_removed _ c false) ((hd.chan c).removable ?_ ?_ ?_ ?_)
    (hd.beside ?_) <;> rw [hdc]
  · exact .inr hc
  · exact hx.expired (.inl hc)
  · exact hx.unstopped (by simp [hc])
  · simp [hc]

/-- A flush in SWITCHING towards a head of the queue goes back to OVERSTAY and removes it (R36, R69). -/
theorem flush_switching_head (he : s.Inside k) (hc : (s.chan c).st = .switching) (only : Bool) :
    (((((s.emptyQueue c).withdraw c).enter c .overstay).afterRemoval c only).dropBlank c).Inside k := by
  have hx := he.chan c
  have hwi := emptyQueue_withdraw_inside (c := c) he
  obtain ⟨hwc, -⟩ := emptyQueue_withdraw_chan s c
  have hec : (((s.emptyQueue c).withdraw c).enter c .overstay).chan c =
      { s.chan c with st := .overstay, queue := [], ready := false, timer := none } := by
    rw [enter_chan, hwc]
  have hsound : ({ s.chan c with st := .overstay, queue := [], ready := false, timer := none } : Channel).Sound
      true :=
    { hx.emptied_withdrawn with
      ending := by have := hx.ending; rw [hc] at this; exact this
      blank := fun h0 => by simp at h0
      blankOnly := fun h0 => by simp at h0
      hop := by have := hx.hop; rw [hc] at this; exact this
      dwell := .inr (.inr (hx.expired (.inr hc)))
      stop := fun h0 => absurd (hx.stop h0) (by simp [hc])
      self := fun h0 => ⟨(hx.self h0).1, .inl rfl⟩
      ready := fun h0 => by simp at h0 }
  have hee : EngineSound (((s.emptyQueue c).withdraw c).enter c .overstay) (fun d => decide (d = c)) k := by
    refine hwi.update c (enter_pins hwi.pins _) (by rw [hec]; simpa using hsound) (enter_other _ c _)
      ((hwi.chan _).loosen _) ?_ fun h0 => by rw [hec] at h0; simp at h0
    rw [hec]
    exact ⟨fun h0 => by simp at h0, fun h0 => absurd ((he.load c).mpr h0) (by simp [hc])⟩
  refine blankDropped_engine (dropBlank_dropped _ c) (l := fun d => decide (d = c)) ?_ (by simp)
  refine headRemoved_engine (afterRemoval_removed _ c _) ((hee.chan c).removable ?_ ?_ ?_ ?_)
    (hee.beside ?_) <;> rw [hec]
  · exact .inr rfl
  · exact hx.expired (.inr hc)
  · exact hx.unstopped (by simp [hc])
  · simp

/-- HOP_FLUSH keeps the laws outside LOADING (R33 to R36, R69). -/
theorem flush_inside (he : s.Inside k) (hst : (s.chan c).st ≠ .loading) : (s.flush c).Inside k := by
  have hx := he.chan c
  unfold State.flush
  simp only [hst, if_false]
  split
  · exact he
  cases hc : (s.chan c).st with
  | idle => exact emptyQueue_inside he (.inl (hx.unready (by simp [hc])))
  | dwell => exact emptyQueue_inside he (.inl (hx.unready (by simp [hc])))
  | ending d => exact emptyQueue_inside he (.inl (hx.unready (by simp [hc])))
  | loading => exact absurd hc hst
  | waiting => exact emptyQueue_withdraw_inside he
  | overstay =>
    cases hs : (s.chan c).selfHead with
    | true => simpa using flush_overstay_self he hc hs
    | false => simpa using flush_overstay_head he hc
  | switching =>
    cases hs : (s.chan c).selfHead with
    | true => simpa using emptyQueue_inside he (.inr hs)
    | false => simpa using flush_switching_head he hc _

/-! The sample period. -/

theorem rampStep_le (ramp d : Nat) : rampStep ramp d ≤ d := by
  unfold rampStep
  dsimp only
  split <;> omega

/-- The step of a gate keeps its laws (R87, R90, R91). -/
theorem gate_step_lawful {g : Gate} (h : g.lawful = true) (ramp : Nat) : (g.step ramp).lawful = true := by
  have hstep := rampStep_le ramp (Config.fullGain - g.gain)
  unfold Gate.step
  cases hs : g.st <;> simp only [Gate.lawful, hs, Bool.and_eq_true, decide_eq_true_eq] at h ⊢
  · exact h
  · exact ⟨h.1, by omega⟩
  · exact h
  · exact ⟨h.1, by omega⟩

@[simp] theorem gate_step_st (g : Gate) (ramp : Nat) : (g.step ramp).st = g.st := rfl
@[simp] theorem gate_step_hold (g : Gate) (ramp : Nat) : (g.step ramp).hold = g.hold := rfl

/-- A channel in the next period keeps its laws (R47, R53, R81, R91). -/
theorem Channel.Sound.advance (h : ch.Sound o) (acc : BitVec 32) (trig : Bool) : (ch.advance acc trig).Sound o :=
  { h with
    gate := gate_step_lawful h.gate _
    dwell := by
      rcases h.dwell with h0 | h0 | h0
      · exact .inl h0
      · exact .inr (.inl h0)
      · exact .inr (.inr (by simp [Channel.advance, h0]))
    timer := fun h0 => h.timer (by simpa [Channel.advance] using h0) }

/-- A sample period that begins keeps the laws (R14). -/
theorem advance_inside (he : s.Inside k) (lines : Lines) : (s.advance lines).Inside k := by
  have hA : (s.advance lines).chan .A = s.chA.advance (s.movedAcc .A) lines.trigA := by simp [State.advance]
  have hB : (s.advance lines).chan .B = s.chB.advance (s.movedAcc .B) lines.trigB := by simp [State.advance]
  have hs : (s.advance lines).slots = s.slots := by simp [State.advance]
  refine ⟨fun d => ?_, ?_, fun i => ?_, fun d => ?_⟩
  · cases d
    · rw [hA]; exact (he.chan .A).advance _ _
    · rw [hB]; exact (he.chan .B).advance _ _
  · rw [hA, hB]; exact he.one
  · obtain ⟨h1, h2⟩ := he.pins i
    rw [show (s.advance lines).chA = _ from hA, show (s.advance lines).chB = _ from hB, State.slot, hs]
    exact ⟨h1, h2⟩
  · cases d
    · rw [hA]; exact he.load .A
    · rw [hB]; exact he.load .B

end Sys2Proof.Machine
end

section
/-! The events of a sample period keep the laws of the machine. -/

namespace Sys2Proof.Machine

variable {s t : State} {c : Chan} {k : Option Chan}

/-- A state with the slots and channels but for the accumulators, and the same around them, keeps the laws. -/
theorem lawful_same (h : s.lawful = true) (hs : SameEngine s t) (hg : t.gateLine = s.gateLine)
    (hst : t.store = s.store) (hl : t.loader = s.loader) (hr : s.reports.SameHolders t.reports) :
    t.lawful = true :=
  lawful_congr h hs hg (by rw [hl]) (by rw [hl]) (by rw [State.loadUse, hl, hst]; rfl)
    (((lawful_iff s).mp h).2.engine.congr hst hl hr)

/-- The laws around the hop engine, over the LINE reasons that an event leaves. -/
theorem State.Around.change (h : s.Around) (hs : ∀ i, (t.slot i).reserved = (s.slot i).reserved)
    (hst : t.store = s.store) (hl : t.loader = s.loader) (hr : s.reports.SameHolders t.reports)
    (hn : ∀ c, (t.chan c).gate.hold.line = ((t.chan c).cfg.follow && t.gateLine)) : t.Around where
  reserved i := by rw [hs, State.loadUse, hl, hst]; exact h.reserved i
  staging := by rw [hl]; exact h.staging
  line := hn
  engine := h.engine.congr hst hl hr

/-- An event that is due takes place, and the arbiter chooses. -/
theorem takeIf_lawful {due : Bool} {effect : State → State} (h : s.lawful = true)
    (he : due = true → (effect s).lawful = true) : (s.takeIf due effect).lawful = true := by
  unfold State.takeIf
  split
  · rename_i hd; exact finish_lawful (he hd)
  · exact h

theorem epochEvent_lawful (h : s.lawful = true) (cause : EpochCause) : (s.epochEvent cause).lawful = true := by
  obtain ⟨h1, h2, h3, -, -, -, h4⟩ := epochEvent_kept s cause
  obtain ⟨-, -, -, -, -, -, hg, -⟩ := epochEvent_taken s cause
  exact lawful_same h ⟨h1, h4⟩ hg h2 h3 (epochEvent_sameHolders s cause)

/-- The laws do not read the epoch block. -/
theorem epoch_lawful (h : s.lawful = true) (e : Epoch) : State.lawful { s with epoch := e } = true := h

theorem syncRise_lawful (h : s.lawful = true) : s.syncRise.lawful = true := by
  unfold State.syncRise
  split
  · exact epoch_lawful h _
  · unfold State.setArm
    exact epochEvent_lawful (epoch_lawful h _) _
  · exact epochEvent_lawful (epoch_lawful h _) _

/-- A routine report keeps the laws. -/
theorem report_lawful (h : s.lawful = true) {r : ReportBody} (hr : r.routine = true) : (s.report r).lawful = true :=
  lawful_same h (sameEngine_report s r) rfl rfl rfl (make_sameHolders _ hr)

/-- The gates' sample becomes the level of the period (R101). -/
def State.lineTaken (s : State) : State := { s with gateLine := s.gatePin }

theorem gateLineChange_eq (s : State) : s.gateLineChange = (s.lineTaken.followLine .A).followLine .B := rfl

/-- The channels after a change of the GATE line's sample: the LINE reason of each follows it (R101). -/
theorem followLine_changed (s : State) (c : Chan) : HoldChanged s (s.followLine c) c
    { (s.chan c).gate.hold with line := (s.chan c).cfg.follow && s.gateLine } := changeHold_changed s c _

theorem followLine_inside (he : s.Inside k) : (s.followLine c).Inside k :=
  changeHold_inside he ⟨rfl, rfl, rfl⟩

/-- What a change of the GATE line's sample makes of each channel's setup, and all that it leaves (R101). -/
theorem gateLineChange_setup (s : State) (c : Chan) : (s.gateLineChange.chan c).cfg = (s.chan c).cfg ∧
    (s.gateLineChange.chan c).gate.hold.line = ((s.chan c).cfg.follow && s.gatePin) ∧
    (s.gateLineChange.chan c).gate.hold.host = (s.chan c).gate.hold.host := by
  have hA := followLine_changed s.lineTaken .A
  have hB := followLine_changed (s.lineTaken.followLine .A) .B
  have hBA := hB.other
  have hAB := hA.other
  rw [chanOther_B] at hBA
  rw [chanOther_A] at hAB
  rw [gateLineChange_eq]
  cases c with
  | A =>
    rw [hBA.cfg, hBA.line, hBA.host, hA.own.1, hA.own.2.1, hA.own.2.2]
    exact ⟨rfl, rfl, rfl⟩
  | B =>
    rw [hB.own.1, hB.own.2.1, hB.own.2.2, hAB.cfg, hAB.host, hA.gateLine]
    exact ⟨rfl, rfl, rfl⟩

theorem gateLineChange_kept (s : State) : s.gateLineChange.gateLine = s.gatePin ∧
    s.gateLineChange.store = s.store ∧ s.gateLineChange.loader = s.loader ∧ s.gateLineChange.link = s.link ∧
    s.reports.SameHolders s.gateLineChange.reports ∧ s.epoch.Settles s.gateLineChange.epoch ∧
    ∀ i, (s.gateLineChange.slot i).reserved = (s.slot i).reserved := by
  have hA := followLine_changed s.lineTaken .A
  have hB := followLine_changed (s.lineTaken.followLine .A) .B
  exact ⟨hB.gateLine.trans hA.gateLine, hB.store.trans hA.store, hB.loader.trans hA.loader,
    hB.link.trans hA.link, hA.holders.trans hB.holders, hA.epoch.trans hB.epoch,
    fun i => (hB.slot i).2.trans (hA.slot i).2⟩

/-- A change of the GATE line's sample keeps the laws (R101). -/
theorem gateLineChange_lawful (h : s.lawful = true) : s.gateLineChange.lawful = true := by
  obtain ⟨hi, ha⟩ := (lawful_iff s).mp h
  have hi0 : s.lineTaken.Inside s.loadChan :=
    SameEngine.engine (s := s) (.of_eq rfl fun d => by cases d <;> rfl) hi
  obtain ⟨hg, hst, hl, -, hr, -, hres⟩ := gateLineChange_kept s
  refine (lawful_iff _).mpr ⟨?_, ha.change hres hst hl hr fun c => ?_⟩
  · rw [State.loadChan, hl]
    exact followLine_inside (followLine_inside hi0)
  · obtain ⟨h1, h2, -⟩ := gateLineChange_setup s c
    rw [h1, h2, hg]

/-! Each event of the period. -/

theorem doSyncEdge_lawful (h : s.lawful = true) : s.doSyncEdge.lawful = true :=
  takeIf_lawful h fun _ => syncRise_lawful h
theorem doWrap_lawful (h : s.lawful = true) : s.doWrap.lawful = true := takeIf_lawful h fun _ => h
theorem doGateLine_lawful (h : s.lawful = true) : s.doGateLine.lawful = true :=
  takeIf_lawful h fun _ => gateLineChange_lawful h

/-- An event of a channel keeps the laws where it keeps those of what the hop engine touches. -/
theorem event_lawful {due : Bool} {effect : State → State} (h : s.lawful = true)
    (m : EngineMoves s (effect s)) (hi : due = true → s.Inside s.loadChan → (effect s).Inside s.loadChan) :
    (s.takeIf due effect).lawful = true :=
  takeIf_lawful h fun hd => lawful_of_moves h m (hi hd ((lawful_iff s).mp h).1)

theorem doArrival_lawful (h : s.lawful = true) : (s.doArrival c).lawful = true :=
  event_lawful h ((EngineMoves.refl s).gateArrive c) fun hd hi => gateArrive_inside hi hd
theorem doExpiry_lawful (h : s.lawful = true) : (s.doExpiry c).lawful = true :=
  event_lawful h ((EngineMoves.refl s).expire c) fun hd hi => expire_inside hi hd
theorem doEdge_lawful (h : s.lawful = true) : (s.doEdge c).lawful = true :=
  event_lawful h ((EngineMoves.refl s).takeEdge c) fun _ hi => takeEdge_inside hi
theorem doTime_lawful (h : s.lawful = true) : (s.doTime c).lawful = true :=
  event_lawful h ((EngineMoves.refl s).timeArrive c) fun hd hi => timeArrive_inside hi hd
theorem doPairTimer_lawful (h : s.lawful = true) : (s.doPairTimer c).lawful = true :=
  event_lawful h ((EngineMoves.refl s).pairExpire c) fun hd hi => pairExpire_inside hi hd

theorem doChannel_lawful (h : s.lawful = true) : (s.doChannel c).lawful = true :=
  doTime_lawful (doEdge_lawful (doExpiry_lawful (doArrival_lawful h)))

/-- The events left of a sample period keep the laws. -/
theorem closePeriod_lawful (h : s.lawful = true) : s.closePeriod.lawful = true :=
  doPairTimer_lawful (doPairTimer_lawful (doChannel_lawful (doChannel_lawful
    (doGateLine_lawful (doWrap_lawful (doSyncEdge_lawful h))))))

theorem endPeriod_lawful (h : s.lawful = true) : s.endPeriod.lawful = true :=
  takeIf_lawful (closePeriod_lawful h) fun _ =>
    report_lawful (s := { s.closePeriod with epoch := { s.closePeriod.epoch with wrapHeld := false } })
      (closePeriod_lawful h) rfl

theorem noteClock_lawful (h : s.lawful = true) (stopped : Bool) : (s.noteClock stopped).lawful = true := by
  unfold State.noteClock
  split
  · exact closePeriod_lawful h
  · exact h

/-- A sample period that begins keeps the laws of the machine (R14). -/
theorem advance_lawful (h : s.lawful = true) (lines : Lines) : (s.advance lines).lawful = true := by
  obtain ⟨hi, ha⟩ := (lawful_iff s).mp h
  refine (lawful_iff _).mpr ⟨?_, ha.change (fun i => ?_) ?_ ?_ ?_ fun c => ?_⟩
  · rw [show (s.advance lines).loadChan = s.loadChan by simp [State.loadChan, State.advance]]
    exact advance_inside hi lines
  · simp [State.advance, State.slot]
  · simp [State.advance]
  · simp [State.advance]
  · simp only [State.advance, State.drivePorts_reports]
    exact ⟨rfl, rfl, rfl, fun _ => rfl⟩
  · have := ha.line c
    cases c <;> simpa [State.advance, Channel.advance] using this

end Sys2Proof.Machine
end

section
/-! The requests of the slot table, the queues, the hop engines and the gates keep the laws of the machine. -/

namespace Sys2Proof.Machine

variable {s t : State} {c : Chan} {k : Option Chan}

/-- An owner's operation that keeps the laws. -/
def KeepsLaws (op : State → State × List Byte) : Prop := ∀ s : State, s.lawful = true → (op s).1.lawful = true

/-! Slots. -/

/-- Slots that keep their pins, and a tone where they have pins, keep the laws of what the hop engine touches. -/
theorem EngineSound.slots {l : Chan → Bool} (he : EngineSound s l k) (hc : ∀ d, t.chan d = s.chan d)
    (hp : ∀ i, (t.slot i).pins = (s.slot i).pins)
    (ht : ∀ i, 0 < (s.slot i).pins → (s.slot i).tone.isSome = true → (t.slot i).tone.isSome = true) :
    EngineSound t l k := by
  refine ⟨fun d => hc d ▸ he.chan d, by rw [hc, hc]; exact he.one, fun i => ?_, fun d => by rw [hc]; exact he.load d⟩
  obtain ⟨h1, h2⟩ := he.pins i
  rw [hp, show t.chA = _ from hc .A, show t.chB = _ from hc .B]
  exact ⟨h1, fun h0 => ht i h0 (h2 h0)⟩

/-- The write of an unpinned slot keeps the laws (R8, R9, R10). -/
theorem setTone_lawful (h : s.lawful = true) {i : Fin 48} (hi : (s.slot i).pinned = false) (tone : Option Tone) :
    (s.setSlot i { s.slot i with tone := tone }).lawful = true := by
  obtain ⟨hin, ha⟩ := (lawful_iff s).mp h
  have hp : (s.slot i).pins = 0 := by simp [Slot.pinned] at hi; exact hi.1
  have hslot (j : Fin 48) : ((s.setSlot i { s.slot i with tone := tone }).slot j) =
      if j = i then { s.slot i with tone := tone } else s.slot j := by
    split
    · rename_i hj; subst hj; simp
    · rename_i hj; exact State.setSlot_slot_other s _ hj
  refine (lawful_iff _).mpr ⟨hin.slots (fun d => by simp) (fun j => ?_) (fun j h0 h1 => ?_),
    ha.change (fun j => ?_) rfl rfl (.rfl' _) fun d => ?_⟩
  · rw [hslot]; split <;> simp_all
  · rw [hslot]
    split
    · rename_i hj; rw [hj, hp] at h0; simp at h0
    · exact h1
  · rw [hslot]; split <;> simp_all
  · rw [State.setSlot_chan]; exact ha.line d

theorem opSlotSet_keeps (index : Byte) (word : BitVec 32) (offset : BitVec 16) (label : List Byte) :
    KeepsLaws (opSlotSet index word offset label) := fun s h => by
  unfold opSlotSet
  repeat' split
  all_goals first
    | exact h
    | exact setTone_lawful h (by simp_all) _

theorem opSlotClear_keeps (index : Byte) : KeepsLaws (opSlotClear index) := fun s h => by
  unfold opSlotClear
  repeat' split
  all_goals first
    | exact h
    | exact setTone_lawful h (by simp_all) _

theorem opSlotGet_keeps (index : Byte) : KeepsLaws (opSlotGet index) := fun s h => by
  unfold opSlotGet
  split <;> exact h

/-! The epoch block. -/

theorem opEpochNow_keeps : KeepsLaws opEpochNow := fun _ h => epochEvent_lawful h _

theorem opEpochArm_keeps (arm : ArmState) : KeepsLaws (opEpochArm arm) := fun _ h => epoch_lawful h _

theorem opEpochMode_keeps (mode : Byte) : KeepsLaws (opEpochMode mode) := fun s h => by
  unfold opEpochMode
  repeat' split
  exacts [opEpochNow_keeps s h, opEpochArm_keeps _ s h, opEpochArm_keeps _ s h, opEpochArm_keeps _ s h, h]

/-! The queues. -/

/-- As many encoded entries are split off as are asked for. -/
theorem splitEntries_length {n i : Nat} {bs : List Byte} {raws : List (List Byte)}
    (h : splitEntries n i bs = .ok raws) : raws.length = n := by
  induction n generalizing i bs raws with
  | zero =>
    unfold splitEntries at h
    split at h
    · cases h; rfl
    · cases h
  | succ n ih =>
    unfold splitEntries at h
    dsimp only at h
    split at h
    · cases h
    · split at h
      · rename_i rest hr
        cases h
        simp [ih hr]
      · cases h

/-- The room of a channel counts the place kept in cycle mode (R24, R29). -/
theorem room_le {ch : Channel} {n : Nat} (hn : n ≠ 0) (h : ¬ch.room < n) :
    ch.queue.length + n + (ch.cfg.cycle && ch.cur.isSome).toNat ≤ 64 := by
  unfold Channel.room Config.queueCapacity at h
  cases hc : (ch.cfg.cycle && ch.cur.isSome) <;> simp [hc] at h ⊢ <;> omega

theorem appendChecked_keeps {es : List HopEntry} (hne : es ≠ []) (hst : (s.chan c).st ≠ .loading)
    (h : s.lawful = true) : (appendChecked c es s).1.lawful = true := by
  unfold appendChecked
  dsimp only
  split
  · exact h
  · rename_i hroom
    split
    · exact h
    · rename_i hslot
      split
      · exact h
      · obtain ⟨hi, -⟩ := (lawful_iff s).mp h
        refine lawful_of_moves h ((EngineMoves.refl s).appendEntries c es)
          (appendEntries_inside hi hne hst (room_le (by simpa using hne) hroom) fun e he => ?_)
        have := List.findIdx?_eq_none_iff.mp hslot e he
        simpa [Option.isSome_iff_ne_none] using this

theorem appendParsed_keeps (count : Byte) (entries : List Byte) (hst : (s.chan c).st ≠ .loading)
    (h : s.lawful = true) : (appendParsed c count entries s).1.lawful = true := by
  unfold appendParsed
  dsimp only
  split
  · exact h
  · rename_i hcount
    split
    · exact h
    · rename_i raws hraws
      split
      · exact h
      · rename_i hval
        refine appendChecked_keeps ?_ hst h
        have hall : ∀ bs ∈ raws, (entryOf (wireEntry bs)).isSome = true := fun bs hb => by
          have := List.findIdx?_eq_none_iff.mp hval bs hb
          simpa [Option.isSome_iff_ne_none] using this
        have hlen := List.filterMap_length_eq_length.mpr hall
        rw [splitEntries_length hraws] at hlen
        intro h0
        simp only [h0, List.length_nil] at hlen
        omega

theorem opHopAppend_keeps (channel count : Byte) (entries : List Byte) :
    KeepsLaws (opHopAppend channel count entries) := fun s h => by
  unfold opHopAppend
  repeat' split
  · exact h
  · exact h
  · rename_i hst; exact appendParsed_keeps count entries hst h

theorem opQueueGet_keeps (channel first count : Byte) : KeepsLaws (opQueueGet channel first count) :=
  fun s h => by
    unfold opQueueGet
    repeat' split
    all_goals exact h

/-! The hop engines and the gates. -/

theorem startChannel_lawful (h : s.lawful = true) (hst : (s.chan c).st = .idle) :
    (s.startChannel c).lawful = true := by
  obtain ⟨hi, -⟩ := (lawful_iff s).mp h
  refine lawful_of_moves h ((EngineMoves.refl s).startChannel c)
    (startChannel_inside hi (.inl hst) Iff.rfl fun h0 => ?_)
  have := (hi.load c).mpr h0
  simp [hst] at this

theorem opStart_keeps (channel : Byte) : KeepsLaws (opStart channel) := fun s h => by
  unfold opStart
  repeat' split
  · exact h
  · exact h
  · rename_i hst; exact startChannel_lawful h hst
  · exact h

theorem opChannelGet_keeps (channel : Byte) : KeepsLaws (opChannelGet channel) := fun s h => by
  unfold opChannelGet
  split <;> exact h

/-- A change of the HOST or LINE reason keeps the laws where the LINE reason it leaves is the lawful one (R77,
R100, R101). -/
theorem changeHold_lawful {x : HoldSet} (hi : s.Inside s.loadChan) (ha : t.Around)
    (hst : s.store = t.store) (hl : s.loader = t.loader) (hr : t.reports.SameHolders s.reports)
    (hs : ∀ i, (s.slot i).reserved = (t.slot i).reserved) (hx : (s.chan c).gate.hold.SameEngine x)
    (hn : x.line = ((s.chan c).cfg.follow && s.gateLine))
    (ho : (s.chan (chanOther c)).gate.hold.line = ((s.chan (chanOther c)).cfg.follow && s.gateLine)) :
    (s.changeHold c x).lawful = true := by
  have hc := changeHold_changed s c x
  refine (lawful_iff _).mpr ⟨?_, ha.change (fun i => (hc.slot i).2.trans (hs i)) (hc.store.trans hst)
    (hc.loader.trans hl) (hr.trans hc.holders) (chan_cases c ?_ ?_)⟩
  · rw [show (s.changeHold c x).loadChan = s.loadChan by rw [State.loadChan, hc.loader]; rfl]
    exact changeHold_inside hi hx
  · rw [hc.own.1, hc.own.2.2, hc.gateLine, hn]
  · rw [hc.other.cfg, hc.other.line, hc.gateLine, ho]

theorem opGate_keeps (channel : Byte) (hold : Bool) : KeepsLaws (opGate channel hold) := fun s h => by
  obtain ⟨hi, ha⟩ := (lawful_iff s).mp h
  unfold opGate
  split
  · exact h
  · rename_i c _
    exact changeHold_lawful hi ha rfl rfl (.rfl' _) (fun _ => rfl) ⟨rfl, rfl, rfl⟩ (ha.line c) (ha.line _)

theorem opGateAction_keeps (channel action : Byte) : KeepsLaws (opGateAction channel action) := fun s h => by
  unfold opGateAction
  repeat' split
  exacts [opGate_keeps channel _ s h, opGate_keeps channel _ s h, h]

/-- An IDLE channel with an empty queue takes any configuration (R71). -/
theorem Channel.Sound.configured {ch : Channel} (h : ch.Sound false) (hst : ch.st = .idle) (cfg : ChanConfig) :
    ({ ch with cfg := cfg } : Channel).Sound false := by
  have hcur : ch.cur = none := by
    have := h.hop
    rw [hst] at this
    simpa [ChanState.holdsHop] using this
  have hroom := h.room
  exact { h with
    ramp := fun _ => .inr (h.shut hcur)
    room := by simp only [hcur, Option.isSome_none, Bool.and_false, Bool.toNat_false] at hroom ⊢; omega
    self := fun h0 => by have := (h.self h0).2; simp [hst] at this }

theorem configure_lawful (h : s.lawful = true) (hst : (s.chan c).st = .idle) (cfg : ChanConfig) :
    (s.configure c cfg).lawful = true := by
  obtain ⟨hi, ha⟩ := (lawful_iff s).mp h
  have hx := (hi.chan c).configured hst cfg
  have hs1 : (s.setChan c { s.chan c with cfg := cfg }).Inside s.loadChan :=
    setChan_inside hi _ hx (fun _ => rfl) (hi.load c) hi.notBoth
  refine changeHold_lawful (t := s) (by simpa [State.loadChan] using hs1) ha (by simp) (by simp)
    (by rw [State.setChan_reports]; exact .rfl' _) (by simp) ?_ ?_ ?_
  · simp only [State.setChan_chan_same]; exact ⟨rfl, rfl, rfl⟩
  · simp
  · simpa using ha.line (chanOther c)

theorem opChannelConfig_keeps (channel policy cycle edge : Byte) (ramp : BitVec 16) (follow : Byte)
    (pairTimeout : BitVec 24) : KeepsLaws (opChannelConfig channel policy cycle edge ramp follow pairTimeout) :=
  fun s h => by
    unfold opChannelConfig
    repeat' split
    · exact h
    · exact h
    · exact h
    · exact h
    · rename_i hst _ _ _
      simp only [not_or, ne_eq, Decidable.not_not] at hst
      exact configure_lawful h hst.1 _

end Sys2Proof.Machine
end

section
/-! What the requests of the slot table and the epoch block answer, and the state right after reset. -/

namespace Sys2Proof.Machine

variable {s t : State} {r : Req} {k : Kind} {i : Fin 48} {index : Byte} {word : BitVec 32} {offset : BitVec 16}
  {label : List Byte}

/-- A request that is taken and whose owner leaves `t` with the answer `body`. -/
theorem request_answers {payload body : List Byte} {op : State → State × List Byte} (h : s.takes r k payload)
    (ho : op (s.frameEnds r.pins) = (t, body)) : s.request r k payload op = t.replied r k payload body := by
  rw [request_taken h, ho]

/-! The fields of a slot request. -/

theorem slotOf_none (h : 48 ≤ index.toNat) : slotOf index = none := by simp [slotOf, h]

theorem slotOf_some (h : i.val = index.toNat) : slotOf index = some i := by
  have : index.toNat < 48 := h ▸ i.isLt
  simp [slotOf, this, Fin.ext_iff, h]

theorem all_printable_iff : label.all printable = true ↔ ∀ c ∈ label, 0x20 ≤ c.toNat ∧ c.toNat ≤ 0x7E := by
  simp [printable]

theorem labelOf_eq (label : List Byte) : labelOf label = if label = [] then none else some label := by
  cases label <;> rfl

theorem Slot.pinned_iff (x : Slot) : x.pinned = true ↔ 0 < x.pins ∨ x.reserved = true := by simp [Slot.pinned]

theorem Slot.pinned_false {x : Slot} (h1 : x.pins = 0) (h2 : x.reserved = false) : x.pinned = false := by
  simp [Slot.pinned, h1, h2]

/-! The slot requests. -/

theorem opSlotSet_bad (h : 48 ≤ index.toNat ∨ word = 0#32 ∨ ∃ c ∈ label, c.toNat < 0x20 ∨ 0x7E < c.toNat) :
    opSlotSet index word offset label s = (s, [0x11#8]) := by
  unfold opSlotSet
  split
  · rfl
  · rename_i i hi
    rcases h with h | h | ⟨c, hc, h⟩
    · simp [slotOf_none h] at hi
    · simp [h, refuse, statusCode]
    · have : label.all printable = false := by
        rw [Bool.eq_false_iff, Ne, all_printable_iff]
        intro hall
        have := hall c hc
        omega
      simp [this, refuse, statusCode]

theorem opSlotSet_pinned (hi : i.val = index.toNat) (hw : word ≠ 0#32)
    (hl : ∀ c ∈ label, 0x20 ≤ c.toNat ∧ c.toNat ≤ 0x7E) (hp : (s.slot i).pinned = true) :
    opSlotSet index word offset label s = (s, [0x20#8, b8 (s.slot i).pins, boolCode (s.slot i).reserved]) := by
  simp only [opSlotSet, slotOf_some hi, hw, all_printable_iff.mpr hl, hp, Bool.not_true, Bool.false_eq_true, if_false,
    if_true, refusePinned, statusCode]

theorem opSlotSet_write (hi : i.val = index.toNat) (hw : word ≠ 0#32)
    (hl : ∀ c ∈ label, 0x20 ≤ c.toNat ∧ c.toNat ≤ 0x7E) (hp : (s.slot i).pins = 0)
    (hr : (s.slot i).reserved = false) : opSlotSet index word offset label s = (s.setSlot i
      { tone := some { word := word, offset := offset, label := if label = [] then none else some label },
        pins := 0, reserved := false }, [0x00#8]) := by
  simp only [opSlotSet, slotOf_some hi, hw, all_printable_iff.mpr hl, Slot.pinned_false hp hr, Bool.not_true,
    Bool.false_eq_true, if_false, answerOk, statusCode, labelOf_eq, hp, hr]

theorem opSlotClear_pinned (hi : i.val = index.toNat) (hp : (s.slot i).pinned = true) :
    opSlotClear index s = (s, [0x20#8, b8 (s.slot i).pins, boolCode (s.slot i).reserved]) := by
  simp only [opSlotClear, slotOf_some hi, hp, if_true, refusePinned, statusCode]

theorem opSlotClear_write (hi : i.val = index.toNat) (hp : (s.slot i).pins = 0)
    (hr : (s.slot i).reserved = false) : opSlotClear index s =
      (s.setSlot i { tone := none, pins := 0, reserved := false }, [0x00#8]) := by
  simp only [opSlotClear, slotOf_some hi, Slot.pinned_false hp hr, Bool.false_eq_true, if_false, answerOk, statusCode,
    hp, hr]

theorem opSlotGet_some (hi : i.val = index.toNat) : opSlotGet index s = (s, 0x00#8 :: slotBody i s) := by
  simp only [opSlotGet, slotOf_some hi, answerOk, statusCode]

theorem b8_index (hi : i.val = index.toNat) : b8 i.val = index := by simp [b8, hi]

/-! The epoch event of a period without COHERENT switches or HOP_BEGINs. -/

/-- Without a HOP_BEGIN of this period no report takes another count. -/
theorem recount_none {b : ReportBlock} (h : b.begun = 0) (count : BitVec 48) : b.recount count = b := by
  have : recountFrom count (b.queue.countP Report.isHopBegin) (b.queue ++ []) = b.queue ++ [] :=
    recountFrom_append count b.queue []
  rw [List.append_nil] at this
  rw [ReportBlock.recount, h, Nat.sub_zero, this, ← h]

theorem realign_none {c : Chan} (h : (s.chan c).coherentNow = none) : s.realign c = s := by simp [State.realign, h]

/-- Where this period has made no COHERENT switch and no HOP_BEGIN that waits, an epoch event sets the count and makes
its report (R16). -/
theorem epochEvent_alone (hc : ∀ c, (s.chan c).coherentNow = none) (hb : s.reports.begun = 0) (cause : EpochCause) :
    s.epochEvent cause = { s with
      epoch := { s.epoch with count := 0#48, wrapDue := false, wrapHeld := false },
      reports := s.reports.make (.epochEvent cause) } := by
  have aligned (u : State) (hu : u.chan = s.chan) (d : Chan) : u.realign d = u := realign_none (by rw [hu]; exact hc d)
  unfold State.epochEvent
  dsimp only
  rw [recount_none hb, aligned _ (by funext d; cases d <;> rfl) .A, aligned _ (by funext d; cases d <;> rfl) .B]
  rfl

end Sys2Proof.Machine

open Sys2Proof Sys2Proof.Machine

/-- Settles O2. -/
theorem resetState : Obligations.ResetState := by
  refine ⟨fun i => ?_, rfl, rfl, fun c => ?_, rfl, rfl, rfl, rfl, rfl, rfl, rfl, rfl, rfl, rfl, rfl, rfl, rfl, rfl⟩
  · simp [State.slot, State.reset, Slot.reset, Vector.get]
  · cases c <;> exact ⟨rfl, rfl, rfl, rfl, rfl, rfl, rfl, rfl, rfl, rfl, rfl, rfl⟩

/-- Settles O3. -/
theorem resetLawful : Obligations.ResetLawful :=
  ⟨by decide, rfl, rfl, by decide, reset_memory_wf, rfl⟩

/-- Settles O16: the checks of Table 1-4 in their order. -/
theorem slotSetWrites : Obligations.SlotSetWrites := by
  intro s r index word offset label ht e
  have answers {t : State} {body : List Byte} (ho : opSlotSet index word offset label e = (t, body)) :
      exec (.slotSet r index word offset label) s =
        .next (t.replied r .slotSet (slotSetPayload index word offset label) body) :=
    congrArg _ (request_answers ht ho)
  refine ⟨fun h => answers (opSlotSet_bad h), fun i hi hw hl => ⟨fun hp => ?_, fun hp hr => ?_⟩⟩
  · exact answers (opSlotSet_pinned hi hw hl ((Slot.pinned_iff _).mpr hp))
  · exact answers (opSlotSet_write hi hw hl hp hr)

/-- Settles O17. -/
theorem slotClearEmpties : Obligations.SlotClearEmpties := by
  intro s r index ht e
  have answers {t : State} {body : List Byte} (ho : opSlotClear index e = (t, body)) :
      exec (.slotClear r index) s = .next (t.replied r .slotClear [index] body) :=
    congrArg _ (request_answers ht ho)
  refine ⟨fun h => answers ?_, fun i hi => ⟨fun hp => ?_, fun hp hr => ?_⟩⟩
  · rw [opSlotClear, slotOf_none h]; rfl
  · exact answers (opSlotClear_pinned hi ((Slot.pinned_iff _).mpr hp))
  · exact answers (opSlotClear_write hi hp hr)

/-- Settles O18. -/
theorem slotGetReads : Obligations.SlotGetReads := by
  intro s r index ht e
  have answers {t : State} {body : List Byte} (ho : opSlotGet index e = (t, body)) :
      exec (.slotGet r index) s = .next (t.replied r .slotGet [index] body) :=
    congrArg _ (request_answers ht ho)
  refine ⟨fun h => answers ?_, fun i hi => ⟨fun hn => ?_, fun tone hn => ?_⟩⟩
  · rw [opSlotGet, slotOf_none h]; rfl
  · rw [answers (opSlotGet_some hi), slotBody, hn, b8_index hi]
    rfl
  · rw [answers (opSlotGet_some hi), slotBody, hn, b8_index hi]
    rfl

/-- Settles O19: an epoch event leaves the arm state, and the arming modes nothing but that. -/
theorem epochRequests : Obligations.EpochRequests := by
  intro s r e
  have answers {mode : Byte} {t : State} {body : List Byte} {op : State → State × List Byte}
      (ht : s.takes r .epoch [mode]) (ho : op e = (t, body)) :
      Host.Outcome.next (φ := Fault) (ρ := Refusal) (s.request r .epoch [mode] op) =
        .next (t.replied r .epoch [mode] body) :=
    congrArg _ (request_answers ht ho)
  refine ⟨fun ht => answers ht rfl, fun ht => answers ht rfl, fun ht => answers ht rfl,
    fun ht => ⟨⟨_, answers ht rfl, epochEvent_taken e .request⟩, fun hc hb => ?_⟩⟩
  exact answers (op := opEpochNow) ht (by rw [opEpochNow, epochEvent_alone hc hb]; rfl)

/-- Settles O20. -/
theorem epochGetReads : Obligations.EpochGetReads :=
  fun _ _ ht => congrArg _ (request_answers ht rfl)

end

section
/-! The events of the sample period, as the obligations state them. -/

namespace Sys2Proof.Machine

variable {s t : State} {c : Chan} {hop : HopEntry} {rest : List HopEntry}

/-! An event that is due, and one that is not. -/

theorem takeIf_due {due : Bool} (h : due = true) (effect : State → State) :
    s.takeIf due effect = (effect s).finish := by simp [State.takeIf, h]

theorem takeIf_undue {due : Bool} (h : due = false) (effect : State → State) : s.takeIf due effect = s := by
  simp [State.takeIf, h]

theorem expiryDue_iff (ch : Channel) :
    ch.expiryDue = true ↔ ch.st = .dwell ∧ ch.cur.isSome = true ∧ ch.dwell = 0 := by
  simp [Channel.expiryDue, and_assoc]

theorem waitedOn_of_waits {ch : Channel} (h : ch.st = .waiting ∨ ch.st = .overstay) : ch.waitedOn = ch.offered := by
  rcases h with h | h <;> simp [Channel.waitedOn, h]

theorem waitedOn_none {ch : Channel} (h : ¬(ch.st = .waiting ∨ ch.st = .overstay)) : ch.waitedOn = none := by
  unfold Channel.waitedOn
  cases hs : ch.st <;> simp_all

/-- Nothing is offered by an empty queue without the current hop as its head. -/
theorem offered_none {ch : Channel} (hq : ch.queue = []) (hs : ch.selfHead = false) : ch.offered = none := by
  simp [Channel.offered, hq, hs]

theorem timeDue_iff (s : State) (c : Chan) :
    s.timeDue c = true ↔ ∃ hop, (s.chan c).waitedOn = some hop ∧ hop.trigger = .time s.epoch.periodCount := by
  unfold State.timeDue
  split <;> simp [*]

/-- The trigger edge of the period is taken off (R55). -/
theorem meetEdge_of_line (hw : (s.chan c).waitedOn = some hop) (ht : hop.trigger = .line) :
    s.meetEdge c = s.headMet c hop := by simp [State.meetEdge, hw, ht]

theorem meetEdge_of_other (h : ∀ hop, (s.chan c).waitedOn = some hop → hop.trigger ≠ .line) : s.meetEdge c = s := by
  unfold State.meetEdge
  split
  · rename_i hop hw; simp [h hop hw]
  · rfl

theorem timeArrive_of_waits (hw : (s.chan c).waitedOn = some hop) :
    s.timeArrive c = s.settleEpoch.headMet c hop := by simp [State.timeArrive, hw]

theorem settleEpoch_offers (h : (s.chan c).offers hop rest) : (s.settleEpoch.chan c).offers hop rest := by
  rw [(settleEpoch_kept s).2.2.2.2 c]
  exact offers_congr h rfl rfl rfl

/-- A channel left with its current hop by the end of a dwell, and the entry into ENDING (R54). -/
theorem expire_stop (h : (s.chan c).stopAtEnd = true) : s.expire c = s.enterEnding c .idle := by
  simp [State.expire, h]

theorem expire_go (h : (s.chan c).stopAtEnd = false) : s.expire c = s.afterRemoval c false := by
  simp [State.expire, h]

end Sys2Proof.Machine

open Sys2Proof Sys2Proof.Machine

/-- Settles O43: the three conditions of R54 in their order. -/
theorem dwellExpiries : Obligations.DwellExpiries := by
  intro s c
  refine ⟨fun h => ?_, fun h1 h2 h3 => ?_⟩
  · have hd : (s.chan c).expiryDue = false := by
      rw [Bool.eq_false_iff, Ne, expiryDue_iff]
      rintro ⟨h1, h2, h3⟩
      rcases h with h | h | h
      exacts [h h1, by simp [h] at h2, h h3]
    exact congrArg _ (takeIf_undue hd _)
  · have hm := (EngineMoves.refl s).expire c
    refine ⟨s.expire c, congrArg _ (takeIf_due ((expiryDue_iff _).mpr ⟨h1, h2, h3⟩) _), hm.store, hm.loader, hm.link,
      fun hs => ?_, fun hs => ?_⟩
    · rw [expire_stop hs]
      exact enterEnding_entered s c .idle
    · rw [expire_go hs]
      exact afterRemoval_removed s c false

/-- Settles O46: the head waited on is the one offered in WAITING and OVERSTAY, and there is none elsewhere. -/
theorem headTriggers : Obligations.HeadTriggers := by
  intro s c waits unmarked
  have hu : unmarked.chan c = { s.chan c with edgeDue := false } := by simp [unmarked]
  have edge (hd : (s.chan c).edgeDue = true) : exec (.triggerEdge c) s = .next (unmarked.meetEdge c).finish :=
    congrArg _ (takeIf_due hd _)
  have missed (hd : (s.chan c).edgeDue = true)
      (h : ∀ hop, (unmarked.chan c).waitedOn = some hop → hop.trigger ≠ .line) :
      exec (.triggerEdge c) s = .next unmarked.finish := by rw [edge hd, meetEdge_of_other h]
  have heard (hw : waits) : (unmarked.chan c).waitedOn = (s.chan c).offered := by
    rw [hu]; exact waitedOn_of_waits (ch := { s.chan c with edgeDue := false }) hw
  refine ⟨fun hd => congrArg _ (takeIf_undue hd _), fun hd h => missed hd fun hop hh => ?_, fun h => ?_,
    fun hop rest hw ho => ⟨fun hd ht => ?_, fun hd ht => ?_, fun ht => ?_⟩⟩
  · by_cases hw : waits
    · rw [heard hw] at hh
      rcases h with h | ⟨h1, h2⟩
      · exact absurd hw h
      · simp [offered_none h1 h2] at hh
    · rw [hu, waitedOn_none (ch := { s.chan c with edgeDue := false }) hw] at hh
      simp at hh
  · have hd : s.timeDue c = false := by
      rw [Bool.eq_false_iff, Ne, timeDue_iff]
      rintro ⟨hop, hh, ht⟩
      by_cases hw : waits
      · rw [waitedOn_of_waits hw] at hh
        exact h.elim (fun h => h hop hh ht) (fun h => h hw)
      · simp [waitedOn_none hw] at hh
    exact congrArg _ (takeIf_undue hd _)
  · refine missed hd fun hop' hh => ?_
    rw [heard hw, offered_of_offers ho] at hh
    cases hh
    exact ht
  · have ho' : (unmarked.chan c).offers hop rest := by rw [hu]; exact offers_congr ho rfl rfl rfl
    refine ⟨_, edge hd, ?_⟩
    rw [meetEdge_of_line ((heard hw).trans (offered_of_offers ho)) ht]
    exact headMet_met ho' (by simp [ht])
  · have hh : (s.chan c).waitedOn = some hop := (waitedOn_of_waits hw).trans (offered_of_offers ho)
    refine ⟨_, congrArg _ (takeIf_due ((timeDue_iff s c).mpr ⟨hop, hh, ht⟩) _), ?_⟩
    rw [timeArrive_of_waits hh]
    exact headMet_met (settleEpoch_offers ho) (by simp [ht])

end

section
/-! SYNC_EDGE, WRAP and GATE_LINE_CHANGE, as the obligations state them. -/

namespace Sys2Proof.Machine

variable {s t : State} {c : Chan} {h : HoldSet}

/-- An armed edge is an epoch event, which a ONCE edge disarms (R18). -/
theorem syncRise_armed (ha : s.epoch.arm ≠ .disarmed) : s.syncRise = State.epochEvent
    { s with epoch := { s.epoch with syncDue := false,
                                     arm := if s.epoch.arm = .once then .disarmed else s.epoch.arm } } .sync := by
  unfold State.syncRise
  cases h : s.epoch.arm with
  | disarmed => exact absurd h ha
  | once => rfl
  | every => simp [h]

theorem syncRise_disarmed (ha : s.epoch.arm = .disarmed) :
    s.syncRise = { s with epoch := { s.epoch with syncDue := false } } := by simp [State.syncRise, ha]

/-- The reports of a change of the hold set: the entry into SWITCHING, and the gate's move (R45, R77, R103). -/
def Channel.holdReports (c : Chan) (x y : Channel) (b : ReportBlock) : ReportBlock :=
  let b1 := if y.st = x.st then b else b.make (.channelState c .switching)
  if y.gate.st = x.gate.st then b1 else b1.make (.gateState c y.gate.st y.gate.hold)

/-- What a change of the HOST or LINE reason to leave `h` makes of a channel: its gate moves as the hold set becomes
empty or stops being so, or BLANK joins and the channel enters SWITCHING (R77, R92, R93, R95). -/
structure Channel.HoldLeft (x y : Channel) (h : HoldSet) : Prop where
  plain : x.readyBlankOverstay = false ∨ x.gate.hold.isEmpty = true ∨ h.isEmpty = false →
    { y with gate := x.gate } = x ∧ y.gate.hold = h ∧
    y.gate.st = (if x.gate.hold.isEmpty = h.isEmpty then x.gate.st
      else if h.isEmpty = true then (if x.cfg.ramp = 0 ∨ x.gate.gain = 1024 then .opened else .opening)
      else if x.cfg.ramp = 0 ∨ x.gate.gain = 0 then .closed else .closing) ∧
    y.gate.gain = (if x.gate.hold.isEmpty = h.isEmpty ∨ x.cfg.ramp ≠ 0 then x.gate.gain
      else if h.isEmpty = true then 1024 else 0)
  blank : x.readyBlankOverstay = true → x.gate.hold.isEmpty = false → h.isEmpty = true →
    { y with gate := x.gate, st := .overstay } = x ∧ y.st = .switching ∧ y.gate.hold = { h with blank := true } ∧
    y.gate.st = x.gate.st ∧ y.gate.gain = x.gate.gain

/-- The state and the gain that `GateLeft` gives a gate, in one equation each. -/
theorem gateLeft_value {ramp : Nat} {g g' : Gate} (hg : GateLeft ramp g h g') :
    g'.st = (if g.hold.isEmpty = h.isEmpty then g.st
      else if h.isEmpty = true then (if ramp = 0 ∨ g.gain = 1024 then .opened else .opening)
      else if ramp = 0 ∨ g.gain = 0 then .closed else .closing) ∧
    g'.gain = (if g.hold.isEmpty = h.isEmpty ∨ ramp ≠ 0 then g.gain
      else if h.isEmpty = true then 1024 else 0) := by
  obtain ⟨-, -, hsame, hshut, hopen⟩ := hg
  cases hh : g.hold.isEmpty <;> cases he : h.isEmpty
  · simpa using hsame (by rw [hh, he])
  · obtain ⟨h1, h2⟩ := hopen hh he
    by_cases hr : ramp = 0 <;> simp [h1, h2, hr]
  · obtain ⟨h1, h2⟩ := hshut hh he
    by_cases hr : ramp = 0 <;> simp [h1, h2, hr]
  · simpa using hsame (by rw [hh, he])

theorem keepsBlank_iff (s : State) (c : Chan) (h : HoldSet) : s.keepsBlank c h = true ↔
    (s.chan c).readyBlankOverstay = true ∧ (s.chan c).gate.hold.isEmpty = false ∧ h.isEmpty = true := by
  simp [State.keepsBlank, and_assoc]

/-- A change of the HOST or LINE reason with a gate that cannot enter CLOSED in SWITCHING or ENDING (R77, R100,
R101). -/
theorem changeHold_left (hg : (s.chan c).gate.lawful = true)
    (hst : ((s.chan c).st ≠ .switching ∧ (s.chan c).st.isEnding = false) ∨ (s.chan c).gate.hold.isEmpty = false)
    (h : HoldSet) : (s.chan c).HoldLeft ((s.changeHold c h).chan c) h ∧
      (s.changeHold c h).reports = (s.chan c).holdReports c ((s.changeHold c h).chan c) s.reports ∧
      (s.changeHold c h).slots = s.slots ∧ (s.changeHold c h).epoch = s.epoch ∧
      (s.changeHold c h).chan (chanOther c) = s.chan (chanOther c) := by
  cases hk : s.keepsBlank c h with
  | false =>
    rw [changeHold_plain hg hst hk]
    refine ⟨⟨fun _ => ?_, fun h1 h2 h3 => ?_⟩, ?_, by simp, by simp, applyHold_other s c h⟩
    · rw [applyHold_chan]
      exact ⟨rfl, rfl, gateLeft_value (gate_move_left hg _ h)⟩
    · exact absurd ((keepsBlank_iff s c h).mpr ⟨h1, h2, h3⟩) (by simp [hk])
    · rw [applyHold_reports, applyHold_chan]
      simp [Channel.holdReports]
  | true =>
    obtain ⟨h1, h2, h3⟩ := (keepsBlank_iff s c h).mp hk
    have hov : (s.chan c).st = .overstay := by
      simp only [Channel.readyBlankOverstay, Bool.and_eq_true, beq_iff_eq] at h1
      exact h1.1.1
    have hmove : ((s.chan c).gate.move (s.chan c).cfg.ramp { h with blank := true }).st = (s.chan c).gate.st ∧
        ((s.chan c).gate.move (s.chan c).cfg.ramp { h with blank := true }).gain = (s.chan c).gate.gain :=
      (gate_move_left hg _ _).2.2.1 (by rw [h2]; simp [HoldSet.isEmpty])
    rw [changeHold_blank hk]
    refine ⟨⟨fun h0 => ?_, fun _ _ _ => ?_⟩, ?_, by simp, by simp, by rw [enter_other, applyHold_other]⟩
    · rcases h0 with h0 | h0 | h0
      · simp [h1] at h0
      · simp [h2] at h0
      · simp [h3] at h0
    · rw [enter_chan, applyHold_chan]
      exact ⟨by rw [← hov], rfl, rfl, hmove⟩
    · rw [enter_reports, enter_chan, applyHold_chan, applyHold_reports]
      simp [Channel.holdReports, hov, hmove.1]

end Sys2Proof.Machine

open Sys2Proof Sys2Proof.Machine

/-- Settles O47. The gates follow the sample one after the other, and neither touches the other's channel. -/
theorem epochAndLineEvents : Obligations.EpochAndLineEvents := by
  refine ⟨fun s => ⟨fun hd => congrArg _ (takeIf_undue hd _), fun hd ha => ?_, fun hd ha => ⟨?_, fun hc hb => ?_⟩⟩,
    fun s => ⟨fun hd => congrArg _ (takeIf_undue hd _), fun hd => congrArg _ (takeIf_due hd _)⟩,
    fun s => ⟨fun hp => congrArg _ (takeIf_undue (by simp [State.gateLineDue, hp]) _), fun hp => ?_⟩⟩
  · rw [← syncRise_disarmed ha]
    exact congrArg _ (takeIf_due hd _)
  · refine ⟨s.syncRise, congrArg _ (takeIf_due hd _), ?_⟩
    rw [syncRise_armed ha]
    exact epochEvent_taken _ _
  · have hs := syncRise_armed ha
    have he := hs.trans (epochEvent_alone (fun c => by cases c; exacts [hc .A, hc .B]) (by exact hb) .sync)
    exact congrArg _ ((takeIf_due hd _).trans (congrArg State.finish he))
  · obtain ⟨hg, hst, hl, hk, -⟩ := gateLineChange_kept s
    refine ⟨s.gateLineChange, congrArg _ (takeIf_due (by simpa [State.gateLineDue] using hp) _), hg, hst, hl, hk,
      gateLineChange_setup s, fun hlaw => ?_⟩
    obtain ⟨hA, hAr, hAs, hAe, hAB⟩ := changeHold_left (s := s.lineTaken) (c := .A) (hlaw .A).1 (hlaw .A).2
      { s.chA.gate.hold with line := s.chA.cfg.follow && s.gatePin }
    have hu : s.lineTaken.followLine .A = s.lineTaken.changeHold .A
      { s.chA.gate.hold with line := s.chA.cfg.follow && s.gatePin } := rfl
    rw [← hu] at hA hAr hAs hAe hAB
    have hAl := (followLine_changed s.lineTaken .A).gateLine
    have huB : (s.lineTaken.followLine .A).chan .B = s.chan .B := hAB
    obtain ⟨hB, hBr, hBs, hBe, hBA⟩ := changeHold_left (s := s.lineTaken.followLine .A) (c := .B)
      (by rw [huB]; exact (hlaw .B).1) (by rw [huB]; exact (hlaw .B).2)
      { s.chB.gate.hold with line := s.chB.cfg.follow && s.gatePin }
    have ht : s.gateLineChange = (s.lineTaken.followLine .A).changeHold .B
        { s.chB.gate.hold with line := s.chB.cfg.follow && s.gatePin } := by
      rw [gateLineChange_eq, State.followLine, huB, hAl]
      rfl
    rw [← ht] at hB hBr hBs hBe hBA
    rw [huB] at hB hBr
    have htA : s.gateLineChange.chan .A = (s.lineTaken.followLine .A).chan .A := hBA
    rw [← htA] at hA hAr
    refine ⟨?_, hBs.trans hAs, hBe.trans hAe, fun c => ?_⟩
    · rw [hBr, hAr]; rfl
    · cases c
      · exact ⟨hA.plain, hA.blank⟩
      · exact ⟨hB.plain, hB.blank⟩

end

section
/-! The sample period, as its obligation states it: what is left of the period before, and the advance. -/

namespace Sys2Proof.Machine

variable {s t : State} {c : Chan}

/-! A period of which nothing is left. -/

/-- The state whose wrap report is not held. -/
def State.unheld (s : State) : State := { s with epoch := { s.epoch with wrapHeld := false } }

/-- Where no event is due, no event is taken. -/
theorem closePeriod_quiet (h : s.unheld.quiet) : s.closePeriod = s := by
  obtain ⟨hs, hw, -, hg, hc⟩ := h
  have channel (d : Chan) : s.doChannel d = s := by
    obtain ⟨ha, hx, he, ht, -⟩ := hc d
    have ha : (s.chan d).gate.arrived = false := by cases d <;> exact ha
    have hx : (s.chan d).expiryDue = false := by cases d <;> exact hx
    have he : (s.chan d).edgeDue = false := by cases d <;> exact he
    have ht : s.timeDue d = false := by cases d <;> exact ht
    simp only [State.doChannel, State.doArrival, State.doExpiry, State.doEdge, State.doTime, takeIf_undue ha,
      takeIf_undue hx, takeIf_undue he, takeIf_undue ht]
  have timer (d : Chan) : s.doPairTimer d = s := takeIf_undue (by cases d; exacts [(hc .A).2.2.2.2, (hc .B).2.2.2.2]) _
  have line : s.doGateLine = s := takeIf_undue (bne_eq_false_iff_eq.mpr hg) _
  have edge : s.doSyncEdge = s := takeIf_undue hs _
  have wrap : s.doWrap = s := takeIf_undue hw _
  simp only [State.closePeriod, edge, wrap, line, channel, timer]

theorem endPeriod_unheld (h : s.closePeriod.epoch.wrapHeld = false) : s.endPeriod = s.closePeriod := takeIf_undue h _

theorem endPeriod_held (h : s.closePeriod.epoch.wrapHeld = true) :
    s.endPeriod = s.closePeriod.reportWrap.finish := takeIf_due h _

theorem endPeriod_quiet (h : s.quiet) : s.endPeriod = s := by
  have hu : s.unheld = s := by
    obtain ⟨-, -, hh, -⟩ := h
    rw [State.unheld, ← hh]
  have hc : s.closePeriod = s := closePeriod_quiet (hu.symm ▸ h)
  rw [endPeriod_unheld (by rw [hc]; exact h.2.2.1), hc]

/-- A state alike in its epoch, its channels and the GATE line is as quiet. -/
theorem quiet_congr (h : s.quiet) (he : t.epoch = s.epoch) (hc : ∀ c, t.chan c = s.chan c)
    (hp : t.gatePin = s.gatePin) (hl : t.gateLine = s.gateLine) : t.quiet := by
  have ht (c : Chan) : t.timeDue c = s.timeDue c := by simp only [State.timeDue, hc, he]
  unfold State.quiet
  simp only [ht, he, hc, hp, hl]
  exact h

theorem sendHead_kept (s : State) (q : Report) : (s.sendHead q).epoch = s.epoch ∧
    (s.sendHead q).gatePin = s.gatePin ∧ (s.sendHead q).gateLine = s.gateLine ∧
    ∀ c, (s.sendHead q).chan c = s.chan c := by
  unfold State.sendHead
  split <;> exact ⟨rfl, rfl, rfl, fun c => by cases c <;> rfl⟩

/-- The end of an event leaves the epoch, the GATE line and the channels (R122). -/
theorem finish_kept (s : State) : s.finish.epoch = s.epoch ∧ s.finish.gatePin = s.gatePin ∧
    s.finish.gateLine = s.gateLine ∧ ∀ c, s.finish.chan c = s.chan c := by
  have ha : s.arbitrate.epoch = s.epoch ∧ s.arbitrate.gatePin = s.gatePin ∧ s.arbitrate.gateLine = s.gateLine ∧
      ∀ c, s.arbitrate.chan c = s.chan c := by
    rcases arbitrate_cases s with ⟨-, h⟩ | ⟨-, -, ⟨o, rest, -, h⟩ | ⟨-, q, -, h⟩ | ⟨-, -, q, rest, -, h⟩ |
      ⟨-, -, -, h⟩⟩ <;> rw [h]
    · exact ⟨rfl, rfl, rfl, fun _ => rfl⟩
    · exact ⟨rfl, rfl, rfl, fun c => by cases c <;> rfl⟩
    · exact ⟨rfl, rfl, rfl, fun c => by cases c <;> rfl⟩
    · exact sendHead_kept s q
    · exact ⟨rfl, rfl, rfl, fun _ => rfl⟩
  simp [State.finish, ha]

theorem finish_quiet (h : s.quiet) : s.finish.quiet := by
  obtain ⟨he, hp, hl, hc⟩ := finish_kept s
  exact quiet_congr h he hc hp hl

/-! The advance. -/

theorem advance_chan (s : State) (l : Lines) (c : Chan) : (s.advance l).chan c =
    (s.chan c).advance (s.movedAcc c) (match c with | .A => l.trigA | .B => l.trigB) := by
  cases c <;> simp [State.advance]

/-- A rising edge is a low sample before a high one (R18). -/
theorem edgeBetween_rising (before : Option Bool) (now : Bool) :
    (edgeBetween before now == some true) = decide (before = some false ∧ now = true) := by
  cases before with
  | none => rfl
  | some b => cases b <;> cases now <;> rfl

/-- The edges that a kind counts (R55). -/
theorem counts_edgeBetween (k : EdgeKind) (before : Option Bool) (now : Bool) :
    k.counts (edgeBetween before now) = true ↔ before = some (!now) ∧
      (k = .both ∨ (k = .rising ∧ now = true) ∨ (k = .falling ∧ now = false)) := by
  cases before with
  | none => cases k <;> simp [edgeBetween, EdgeKind.counts]
  | some b => cases k <;> cases b <;> cases now <;> simp [edgeBetween, EdgeKind.counts]

theorem allOnes_iff (x : BitVec 48) : (x == BitVec.allOnes 48) = decide (x.toNat = 281474976710655) := by
  rw [Bool.eq_iff_iff, beq_iff_eq, decide_eq_true_eq, ← BitVec.toNat_inj]
  rfl

/-- The sample of a channel that holds a hop (R105, R107, R108). -/
theorem sample_of_hop {ch : Channel} {hop : HopEntry} (h : ch.cur = some hop) : ch.sample = BitVec.ofInt 16
    (((sineTable (ch.acc.toNat / 262144) * hop.amplitude.toNat).tdiv 32767 * ch.gate.periodGain).tdiv 1024) := by
  simp only [Channel.sample, h]
  rfl

theorem sample_none {ch : Channel} (h : ch.cur = none) : ch.sample = 0#16 := by simp only [Channel.sample, h]

theorem advance_ports (s : State) (l : Lines) : (s.advance l).ports =
    { s.ports with
      douta := ((s.advance l).chan .A).sample, doutb := ((s.advance l).chan .B).sample,
      priorA := s.ports.douta, priorB := s.ports.doutb, strobes := s.ports.strobes + 1, periodOpen := true } := by
  rfl

end Sys2Proof.Machine

open Sys2Proof Sys2Proof.Machine

/-- Settles O48: the events left of the period, and then the advance, field by field. -/
theorem samplePeriodAdvances : Obligations.SamplePeriodAdvances := by
  intro s l
  refine ⟨rfl, endPeriod_unheld, endPeriod_held, fun pins => rfl, endPeriod_quiet, fun hh => ?_, ?_⟩
  · intro u hu
    have hc : s.closePeriod = s := closePeriod_quiet hu
    have hf : (State.finish { u with reports := u.reports.make (.epochEvent .wrap) }).quiet :=
      finish_quiet (quiet_congr hu rfl (fun c => by cases c <;> rfl) rfl rfl)
    have h1 : s.endPeriod = State.finish { u with reports := u.reports.make (.epochEvent .wrap) } := by
      rw [endPeriod_held (by rw [hc]; exact hh), hc]; rfl
    exact congrArg (fun v : State => Host.Outcome.next (v.advance l)) (h1.trans (endPeriod_quiet hf).symm)
  · intro u
    refine ⟨u.advance l, rfl, ?_, by simp [State.advance], by simp [State.advance, ReportBlock.nextPeriod],
      by simp [State.advance], by simp [State.advance], by simp [State.advance], by simp [State.advance],
      by simp [State.advance], by simp [State.advance], fun c => ?_, rfl, rfl, rfl, rfl, fun h => ?_, fun h => ?_,
      fun hop h => ?_, fun hop h => ?_⟩
    · simp only [State.advance, State.drivePorts_epoch, Epoch.advance, edgeBetween_rising, allOnes_iff]
    · intro now
      rw [advance_chan]
      exact ⟨rfl, rfl, rfl, rfl, rfl, rfl, rfl, rfl, rfl, rfl, rfl, rfl, rfl, rfl, rfl, rfl,
        counts_edgeBetween _ _ _⟩
    · rw [advance_ports, advance_chan]
      exact sample_none h
    · rw [advance_ports, advance_chan]
      exact sample_none h
    · rw [advance_ports, advance_chan]
      exact sample_of_hop h
    · rw [advance_ports, advance_chan]
      exact sample_of_hop h

end

section
/-! The requests and the completion events of the store keep the laws of the machine. -/

namespace Sys2Proof.Machine

variable {s t : State} {k : LoadCtx}

/-! The holders of the store engine. -/

/-- An IDLE store engine is held by nothing, and the report block is open (R148, R155). -/
theorem State.EngineHeld.free (h : s.EngineHeld) (he : s.store.engine = .idle) :
    s.store.op = none ∧ s.loader.ctx = none ∧ s.reports.completion = none ∧
      s.reports.queue.countP isPowerUp = 0 ∧ s.reports.isOpen = true := by
  have hh := h.holders
  have hs := h.scan
  simp only [he, bne_self_eq_false, Bool.toNat_false] at hh
  have hop : s.store.op = none := by
    cases ho : s.store.op with
    | none => rfl
    | some _ => simp [ho] at hh
  refine ⟨hop, ?_, ?_, by omega, by simpa [hop] using hs⟩
  · cases hc : s.loader.ctx with
    | none => rfl
    | some _ => simp [hc] at hh
  · cases hc : s.reports.completion with
    | none => rfl
    | some _ => simp [hc] at hh

/-- An operation in progress is the one holder of the store engine (R155). -/
theorem State.EngineHeld.ofOp {op : StoreOp} (h : s.EngineHeld) (ho : s.store.op = some op) :
    s.loader.ctx = none ∧ s.reports.completion = none ∧ s.reports.queue.countP isPowerUp = 0 ∧
      s.store.engine ≠ .idle ∧ s.reports.isOpen = !op.isScan := by
  have hh := h.holders
  have hs := h.scan
  have hle : (s.store.engine != .idle).toNat ≤ 1 := Bool.toNat_le _
  simp only [ho, Option.isSome_some, Bool.toNat_true] at hh
  refine ⟨?_, ?_, by omega, fun he => by simp [he] at hh, by simp [ho] at hs; simp [hs]⟩
  · cases hc : s.loader.ctx with
    | none => rfl
    | some _ => simp [hc] at hh; omega
  · cases hc : s.reports.completion with
    | none => rfl
    | some _ => simp [hc] at hh; omega

/-- A load in flight is the one holder of the store engine (R155). -/
theorem State.EngineHeld.ofLoad (h : s.EngineHeld) (hc : s.loader.ctx = some k) :
    s.store.op = none ∧ s.reports.completion = none ∧ s.reports.queue.countP isPowerUp = 0 ∧
      s.store.engine ≠ .idle ∧ s.reports.isOpen = true := by
  have hh := h.holders
  have hs := h.scan
  have hle : (s.store.engine != .idle).toNat ≤ 1 := Bool.toNat_le _
  simp only [hc, Option.isSome_some, Bool.toNat_true] at hh
  have hop : s.store.op = none := by
    cases ho : s.store.op with
    | none => rfl
    | some _ => simp [ho] at hh; omega
  refine ⟨hop, ?_, by omega, fun he => by simp [he] at hh, by simpa [hop] using hs⟩
  cases ho : s.reports.completion with
  | none => rfl
  | some _ => simp [ho] at hh; omega

/-- A completion report takes its place in an open block (R144). -/
theorem make_completion {b : ReportBlock} {r : ReportBody} (hr : reportClass r = .completion)
    (ho : b.isOpen = true) : b.make r = { b with completion := some ⟨r, 1⟩ } := by
  have hm : maskable r = false := by
    cases r <;> simp [reportClass] at hr <;> simp [maskable, reportIndex, Config.fullMask]
  have hn (b' : ReportBlock) : b'.note b r = b' := by
    cases r <;> simp [reportClass] at hr <;> rfl
  unfold ReportBlock.make
  rw [hn]
  simp [ReportBlock.accept, ho, hm, hr]

theorem loadDone_class (k : LoadCtx) (st : Status) (d : Byte) : reportClass (loadDone k st d) = .completion := rfl

/-! The store's requests and completions. -/

/-- A change of the store and the report block without a load in flight keeps the laws where it keeps those of the
store engine. -/
theorem store_lawful (h : s.lawful = true) (hc : s.loader.ctx = none) (hs : SameEngine s t)
    (hg : t.gateLine = s.gateLine) (hl : t.loader.ctx = none) (hsg : t.loader.staging = s.loader.staging)
    (he : t.EngineHeld) : t.lawful = true :=
  lawful_congr h hs hg (hl.trans hc.symm) hsg (by rw [loadUse_none hl, loadUse_none hc]) he

/-- An operation that an IDLE store engine takes is its holder (R157). -/
theorem beginStore_lawful (h : s.lawful = true) (hi : s.store.engine = .idle) {e : EngineState} (he : e ≠ .idle)
    (area : Fin 8) (d : Dir) {op : StoreOp} (ho : op.isScan = false) :
    (s.beginStore e area d op).lawful = true := by
  have ha := ((lawful_iff s).mp h).2.engine
  obtain ⟨-, hc, hcm, hp, hopen⟩ := ha.free hi
  refine store_lawful h hc (.of_eq rfl fun d => by cases d <;> rfl) rfl hc rfl
    ⟨?_, ?_, fun h0 => absurd (hopen.symm.trans h0) (by simp)⟩
  · simp [State.beginStore, hc, hcm, hp, bne_iff_ne.mpr he]
  · simp [State.beginStore, ho, hopen]

/-- A completion event of the store hands the engine from the operation to its report (R156). -/
theorem endStore_lawful (h : s.lawful = true) {op : StoreOp} (ho : s.store.op = some op) (hn : op.isScan = false)
    {store : Store} (hst : store.engine = s.store.engine) (area : Fin 8) (d : Dir) {r : ReportBody}
    (hr : reportClass r = .completion) : (s.endStore store area d r).lawful = true := by
  obtain ⟨hc, -, hp, he, hopen⟩ := ((lawful_iff s).mp h).2.engine.ofOp ho
  simp only [hn, Bool.not_false] at hopen
  refine store_lawful h hc (.of_eq rfl fun d => by cases d <;> rfl) rfl hc rfl ⟨?_, ?_, ?_⟩
  · simp [State.endStore, make_completion hr hopen, hc, hp, Store.setDir, hst, bne_iff_ne.mpr he]
  · simp [State.endStore, make_completion hr hopen, hopen]
  · simp [State.endStore, make_completion hr hopen, hopen]

theorem storeDone_class (seq : Byte) (kind : StoreKind) (area : Fin 8) :
    reportClass (storeDone seq kind area) = .completion := rfl

theorem eraseDone_lawful (h : s.lawful = true) {area : Fin 8} {seq : Byte} (ho : s.store.op = some (.erase area seq)) :
    (s.eraseDone area seq).lawful = true := by
  unfold State.eraseDone
  exact endStore_lawful h ho rfl (by simp [Store.eraseChunks]) _ _ (storeDone_class _ _ _)

theorem writeDone_lawful (h : s.lawful = true) {area : Fin 8} {seq : Byte} {chunk : Nat} {data : List Byte}
    (ho : s.store.op = some (.write area seq chunk data)) :
    (s.writeDone area seq chunk data).lawful = true := by
  unfold State.writeDone
  exact endStore_lawful h ho rfl (by simp [Store.program]) _ _ (storeDone_class _ _ _)

theorem commitDone_lawful (h : s.lawful = true) {area : Fin 8} {seq : Byte} {autostart startAfter : Bool} {ch : Chan}
    {r : CommitRec} (ho : s.store.op = some (.commit area seq autostart ch startAfter (some r))) :
    (s.commitDone area seq r).lawful = true := by
  unfold State.commitDone
  exact endStore_lawful h ho rfl (by simp [Store.program]) _ _ (storeDone_class _ _ _)

theorem revokeDone_lawful (h : s.lawful = true) {area : Fin 8} {seq : Byte} (ho : s.store.op = some (.revoke area seq)) :
    (s.revokeDone area seq).lawful = true := by
  unfold State.revokeDone
  exact endStore_lawful h ho rfl (by simp [Store.program]) _ _ (storeDone_class _ _ _)

theorem validate_lawful (h : s.lawful = true) {area : Fin 8} {seq : Byte} {au : Bool} {ch : Chan} {sa : Bool}
    {rec : Option CommitRec} (ho : s.store.op = some (.commit area seq au ch sa rec)) :
    (s.validate area seq au ch sa).lawful = true := by
  unfold State.validate
  split
  · exact endStore_lawful h ho rfl rfl _ _ rfl
  · obtain ⟨hc, hcm, hp, -, hopen⟩ := ((lawful_iff s).mp h).2.engine.ofOp ho
    refine store_lawful h hc (.of_eq rfl fun d => by cases d <;> rfl) rfl hc rfl ⟨?_, ?_, fun h0 => ?_⟩
    · simp [State.beginStore, hc, hcm, hp]; rfl
    · simp [State.beginStore, StoreOp.isScan, hopen]
    · exact absurd (hopen.symm.trans h0) (by simp [StoreOp.isScan])

/-- POWER_UP is made as the block opens: it is never masked (R147, R148). -/
theorem scanDone_reports (b : ReportBlock) (hq : b.queue = []) (cause : ResetCause) (areas : List AreaState) :
    ReportBlock.make { b with isOpen := true } (.powerUp cause areas) =
      { b with isOpen := true, queue := [⟨.powerUp cause areas, 1⟩] } := by
  have hm : maskable (.powerUp cause areas) = false := by simp [maskable, reportIndex, Config.fullMask]
  simp [ReportBlock.make, ReportBlock.accept, ReportBlock.note, hm, reportClass, ReportBlock.join, hq,
    Config.reportCapacity]

theorem scanDone_lawful (h : s.lawful = true) {cause : ResetCause} (ho : s.store.op = some (.scan cause)) :
    (s.scanDone cause).lawful = true := by
  have ha := ((lawful_iff s).mp h).2.engine
  obtain ⟨hc, hcm, -, he, hopen⟩ := ha.ofOp ho
  have hq := ha.closed (by simpa [StoreOp.isScan] using hopen)
  have hr : (s.scanDone cause).reports = _ := scanDone_reports s.reports hq cause _
  have hl : (s.scanDone cause).loader = s.loader := rfl
  have hop : (s.scanDone cause).store.op = none := rfl
  have hen : (s.scanDone cause).store.engine = s.store.engine := rfl
  refine store_lawful h hc (.of_eq rfl fun d => by cases d <;> rfl) rfl hc rfl ⟨?_, ?_, fun h0 => ?_⟩
  · rw [hr, hl, hop, hen, hc, hcm, bne_iff_ne.mpr he]; rfl
  · rw [hr, hop]; rfl
  · rw [hr] at h0; simp at h0

theorem opStoreErase_keeps (area seq : Byte) (wp : Bool) : KeepsLaws (opStoreErase area seq wp) := fun s h => by
  unfold opStoreErase
  dsimp only
  repeat' split
  all_goals first
    | exact h
    | exact beginStore_lawful h (by simp_all) (by simp) _ _ rfl

theorem opStoreWrite_keeps (area chunk : Byte) (data : List Byte) (seq : Byte) (wp : Bool) :
    KeepsLaws (opStoreWrite area chunk data seq wp) := fun s h => by
  unfold opStoreWrite
  dsimp only
  repeat' split
  all_goals first
    | exact h
    | exact beginStore_lawful h (by simp_all) (by simp) _ _ rfl

theorem opStoreCommit_keeps (area autostart channel startAfter seq : Byte) (wp : Bool) :
    KeepsLaws (opStoreCommit area autostart channel startAfter seq wp) := fun s h => by
  unfold opStoreCommit
  repeat' split
  all_goals first
    | exact h
    | exact beginStore_lawful h (by simp_all) (by simp) _ _ rfl

theorem opStoreRevoke_keeps (area seq : Byte) (wp : Bool) : KeepsLaws (opStoreRevoke area seq wp) := fun s h => by
  unfold opStoreRevoke
  repeat' split
  all_goals first
    | exact h
    | exact beginStore_lawful h (by simp_all) (by simp) _ _ rfl

theorem opStoreRead_keeps (area : Byte) (offset : BitVec 16) (length : Byte) :
    KeepsLaws (opStoreRead area offset length) := fun s h => by
  unfold opStoreRead
  repeat' split
  all_goals exact h

theorem opStoreBlank_keeps (area : Byte) : KeepsLaws (opStoreBlank area) := fun s h => by
  unfold opStoreBlank
  repeat' split
  all_goals exact h

theorem opStoreDigest_keeps (area first last : Byte) : KeepsLaws (opStoreDigest area first last) := fun s h => by
  unfold opStoreDigest
  repeat' split
  all_goals exact h

theorem opStoreInfo_keeps : KeepsLaws opStoreInfo := fun s h => by
  unfold opStoreInfo
  split <;> exact h

end Sys2Proof.Machine
end

section
/-! What the loader does: what a load's acceptance, its end and its apply leave, and that they keep the laws of the
machine. -/

namespace Sys2Proof.Machine

variable {s t : State} {c : Chan} {k : LoadCtx} {p : Program}

/-! The reserved marks. -/

theorem reserve_chan (s : State) (use : BitVec 48) (d : Chan) : (s.reserve use).chan d = s.chan d := by
  cases d <;> simp [State.reserve]

theorem reserve_slot (s : State) (use : BitVec 48) (i : Fin 48) :
    (s.reserve use).slot i = { s.slot i with reserved := use.getLsbD i } := by
  simp [State.reserve, State.slot, Vector.get_ofFn]

@[simp] theorem reserve_reports (s : State) (use : BitVec 48) : (s.reserve use).reports = s.reports := by
  simp [State.reserve]

theorem clearReserved_chan (s : State) (d : Chan) : s.clearReserved.chan d = s.chan d := by
  cases d <;> simp [State.clearReserved]

theorem clearReserved_slot (s : State) (i : Fin 48) :
    s.clearReserved.slot i = { s.slot i with reserved := false } := by
  simp [State.clearReserved, State.slot, Vector.get_ofFn]

theorem enter_slot (s : State) (c : Chan) (st : ChanState) (i : Fin 48) : (s.enter c st).slot i = s.slot i := by
  simp [State.slot]

theorem enter_sameHolders (s : State) (c : Chan) (st : ChanState) :
    s.reports.SameHolders (s.enter c st).reports := by
  rw [enter_reports]
  split
  · exact .rfl' _
  · exact make_sameHolders _ rfl

theorem moveGate_sameHolders (s : State) (c : Chan) (g : Gate) :
    s.reports.SameHolders (s.moveGate c g).reports := by
  unfold State.moveGate
  split
  · rw [State.setGate_reports]; exact .rfl' _
  · rw [State.report_reports, State.setGate_reports]; exact make_sameHolders _ rfl

/-! A channel that rests goes between IDLE and LOADING. -/

/-- A channel without a hop and without readiness changes its state to another without a hop; the slots keep their
pins and tones. -/
theorem EngineSound.rest {l l' : Option Chan} {st : ChanState} (he : s.Inside l)
    (hold : (s.chan c).st.holdsHop = false) (hnew : st.holdsHop = false) (hr : (s.chan c).ready = false)
    (hc : t.chan c = { s.chan c with st := st }) (ho : t.chan (chanOther c) = s.chan (chanOther c))
    (hp : ∀ i, (t.slot i).pins = (s.slot i).pins) (ht : ∀ i, (t.slot i).tone = (s.slot i).tone)
    (hk : l = some (chanOther c) ↔ l' = some (chanOther c)) (hl : st = .loading ↔ l' = some c) : t.Inside l' := by
  have hpins : t.PinsSound := fun i => by
    obtain ⟨h1, h2⟩ := he.pins i
    rw [pinsOn_sum s c] at h1
    rw [pinsOn_sum t c, hc, ho, hp, ht]
    exact ⟨h1, h2⟩
  refine he.rekey c hpins ?_ ho (he.chan _) hk (by rw [hc]; exact hl) (by rw [hc]; intro h0; simp [hr] at h0)
  rw [hc]
  exact (he.chan c).resting hold hr st hnew

/-! The acceptance of a load (R171). -/

/-- What the acceptance of a load leaves, field by field. -/
structure LoadTaken (s t : State) (k : LoadCtx) : Prop where
  own : t.chan k.chan = { s.chan k.chan with st := .loading }
  other : t.chan (chanOther k.chan) = s.chan (chanOther k.chan)
  slot : ∀ i, t.slot i = { s.slot i with
    reserved := (((s.store.dir k.area).commit.map CommitRec.slotUse).getD 0#48).getLsbD i }
  gateLine : t.gateLine = s.gateLine
  store : t.store = { s.store with engine := .reading }
  loader : t.loader = { s.loader with ctx := some k, staging := [] }
  holders : s.reports.SameHolders t.reports
  epoch : t.epoch = s.epoch

theorem acceptLoad_taken (s : State) (k : LoadCtx) : LoadTaken s (s.acceptLoad k) k := by
  unfold State.acceptLoad
  dsimp only
  refine ⟨?_, ?_, fun i => ?_, by simp [State.reserve], ?_, by simp [State.reserve], ?_, by simp [State.reserve]⟩
  · rw [State.setEngine_chan, enter_chan, reserve_chan]; rfl
  · rw [State.setEngine_chan, enter_other, reserve_chan]; rfl
  · rw [State.setEngine_slot, enter_slot, reserve_slot]; rfl
  · simp [State.setEngine, State.reserve]
  · have := enter_sameHolders (State.reserve { s with loader := { s.loader with ctx := some k, staging := [] } }
      (((s.store.dir k.area).commit.map CommitRec.slotUse).getD 0#48)) k.chan .loading
    rwa [reserve_reports] at this

/-- A load that an IDLE store engine takes for an IDLE channel (R171). -/
theorem acceptLoad_lawful (h : s.lawful = true) (hi : s.store.engine = .idle) (hst : (s.chan k.chan).st = .idle)
    (ht : LoadTaken s t k) : t.lawful = true := by
  obtain ⟨hin, ha⟩ := (lawful_iff s).mp h
  obtain ⟨hop, hc, hcm, hp, hopen⟩ := ha.engine.free hi
  have hno : s.loadChan = none := by simp [State.loadChan, hc]
  have hyes : t.loadChan = some k.chan := by simp [State.loadChan, ht.loader]
  have hr : (s.chan k.chan).ready = false := (hin.chan k.chan).unready (by simp [hst])
  refine (lawful_iff t).mpr ⟨?_, fun i => ?_, fun h0 => ?_, fun d => ?_, ?_, ?_, fun h0 => ?_⟩
  · rw [hyes]
    refine EngineSound.rest (st := .loading) hin (by rw [hst]; rfl) rfl hr ht.own ht.other (fun i => by rw [ht.slot])
      (fun i => by rw [ht.slot]) ?_ (by simp)
    rw [hno]; cases k.chan <;> simp
  · rw [ht.slot, State.loadUse, ht.loader, ht.store]; rfl
  · rw [ht.loader] at h0; simp at h0
  · rw [ht.gateLine]
    revert d
    refine chan_cases k.chan ?_ ?_
    · rw [ht.own]; exact ha.line k.chan
    · rw [ht.other]; exact ha.line _
  · rw [ht.store, ht.loader, ht.holders.completion, ht.holders.powerUps, hop, hcm, hp]; rfl
  · rw [ht.store, ht.holders.isOpen, hopen, hop]; rfl
  · rw [ht.holders.isOpen, hopen] at h0; simp at h0

theorem opLoad_keeps (area channel start seq : Byte) : KeepsLaws (opLoad area channel start seq) := fun s h => by
  unfold opLoad
  repeat' split
  all_goals first
    | exact h
    | exact acceptLoad_lawful h (by simp_all) (by simp_all) (acceptLoad_taken s _)

/-! The end of a load (R169, R177, R179). -/

theorem endLoad_chan (s : State) (d : Chan) : s.endLoad.chan d = s.chan d := by
  rw [State.endLoad, clearReserved_chan]; cases d <;> rfl

theorem endLoad_slot (s : State) (i : Fin 48) : s.endLoad.slot i = { s.slot i with reserved := false } := by
  rw [State.endLoad, clearReserved_slot]; rfl

theorem endLoad_kept (s : State) : s.endLoad.loader = { s.loader with ctx := none, staging := [] } ∧
    s.endLoad.store = s.store ∧ s.endLoad.reports = s.reports ∧ s.endLoad.epoch = s.epoch ∧
    s.endLoad.link = s.link ∧ s.endLoad.gateLine = s.gateLine := by
  simp [State.endLoad, State.clearReserved]

/-- What the end of a load without an apply leaves, field by field (R177, R179). -/
structure LoadEnded (s t : State) (k : LoadCtx) (st : Status) (detail : Byte) : Prop where
  own : t.chan k.chan = { s.chan k.chan with st := .idle }
  other : t.chan (chanOther k.chan) = s.chan (chanOther k.chan)
  slot : ∀ i, t.slot i = { s.slot i with reserved := false }
  loader : t.loader = { s.loader with ctx := none, staging := [] }
  store : t.store = s.store
  epoch : t.epoch = s.epoch
  link : t.link = s.link
  gateLine : t.gateLine = s.gateLine
  reports : (s.chan k.chan).st = .loading → t.reports =
    (s.reports.make (.channelState k.chan .idle)).make (.loadDone k.seq k.chan k.area st detail)

theorem failLoad_ended (s : State) (k : LoadCtx) (st : Status) (detail : Byte) :
    LoadEnded s (s.failLoad k st detail) k st detail := by
  obtain ⟨h1, h2, h3, h4, h5, h6⟩ := endLoad_kept s
  unfold State.failLoad
  refine ⟨?_, ?_, fun i => ?_, by simp [h1], by simp [h2], by simp [h4], by simp [h5], by simp [h6], fun hst => ?_⟩
  · rw [State.report_chan, enter_chan, endLoad_chan]
  · rw [State.report_chan, enter_other, endLoad_chan]
  · rw [State.report_slot, enter_slot, endLoad_slot]
  · rw [State.report_reports, enter_reports, endLoad_chan, hst, h3]; rfl

theorem cancelLoad_eq (h : s.loader.ctx = some k) : s.cancelLoad = s.failLoad k .cancelled 0xFF#8 := by
  simp only [State.cancelLoad, h]; rfl

theorem cancelLoad_none (h : s.loader.ctx = none) : s.cancelLoad = s := by simp only [State.cancelLoad, h]

/-- A load's LOAD_DONE takes the store engine from the load, whatever the hop engine did before it (R177, R178). -/
theorem loadDone_lawful {w : State} (hw : w.Inside none) (hctx : w.loader.ctx = none) (hsg : w.loader.staging = [])
    (hres : ∀ i, (w.slot i).reserved = false)
    (hline : ∀ d, (w.chan d).gate.hold.line = ((w.chan d).cfg.follow && w.gateLine))
    (he : s.EngineHeld) (hc : s.loader.ctx = some k) (hop : w.store.op = s.store.op)
    (hen : w.store.engine = s.store.engine) (hr : s.reports.SameHolders w.reports) (st : Status) (detail : Byte) :
    (w.report (loadDone k st detail)).lawful = true := by
  obtain ⟨ho, hcm, hp, hne, hopen⟩ := he.ofLoad hc
  have hm : (w.report (loadDone k st detail)).reports =
      { w.reports with completion := some ⟨loadDone k st detail, 1⟩ } :=
    make_completion (loadDone_class k st detail) (hr.isOpen.trans hopen)
  have hnone : (w.report (loadDone k st detail)).loadChan = none := by simp [State.loadChan, hctx]
  refine (lawful_iff _).mpr ⟨?_, fun i => ?_, fun _ => hsg, fun d => ?_, ?_, ?_, fun h0 => ?_⟩
  · rw [hnone]
    exact hw.slots (fun d => State.report_chan _ _ d) (fun i => rfl) fun i _ h => h
  · rw [State.report_slot, hres, loadUse_none (by simpa using hctx)]; simp
  · rw [State.report_chan]; exact hline d
  · rw [hm]
    simp [hctx, hop, ho, hr.powerUps, hp, hen, bne_iff_ne.mpr hne]
  · rw [hm]
    simp [hop, ho, hr.isOpen, hopen]
  · rw [hm] at h0
    simp [hr.isOpen, hopen] at h0

/-- A load in flight: the laws of the machine but for the reserved marks, the area's record apart. -/
structure State.Loading (s : State) (k : LoadCtx) : Prop where
  inside : s.Inside (some k.chan)
  ctx : s.loader.ctx = some k
  line : ∀ d, (s.chan d).gate.hold.line = ((s.chan d).cfg.follow && s.gateLine)
  engine : s.EngineHeld

theorem loading_of_lawful (h : s.lawful = true) (hc : s.loader.ctx = some k) : s.Loading k := by
  obtain ⟨hi, ha⟩ := (lawful_iff s).mp h
  have hk : s.loadChan = some k.chan := by simp [State.loadChan, hc]
  exact ⟨hk ▸ hi, hc, ha.line, ha.engine⟩

theorem State.Loading.st (h : s.Loading k) : (s.chan k.chan).st = .loading := (h.inside.load k.chan).mpr rfl

/-- A load in flight reads neither its staging buffer nor the directory. -/
theorem State.Loading.congr (h : s.Loading k) (hs : t.slots = s.slots) (hc : ∀ d, t.chan d = s.chan d)
    (hg : t.gateLine = s.gateLine) (hl : t.loader.ctx = s.loader.ctx) (hop : t.store.op = s.store.op)
    (hen : t.store.engine = s.store.engine) (hr : t.reports = s.reports) : t.Loading k where
  inside := (SameEngine.of_eq hs hc).engine h.inside
  ctx := hl.trans h.ctx
  line d := by rw [hc, hg]; exact h.line d
  engine := ⟨by rw [hop, hl, hr, hen]; exact h.engine.holders, by rw [hop, hr]; exact h.engine.scan,
    by rw [hr]; exact h.engine.closed⟩

/-- A load that ends without an apply keeps the laws, whatever has become of its area's record. -/
theorem failLoad_lawful (h : s.Loading k) (st : Status) (detail : Byte) :
    (s.failLoad k st detail).lawful = true := by
  obtain ⟨h1, h2, h3, -, -, h6⟩ := endLoad_kept s
  obtain ⟨hi, hc, hline, he⟩ := h
  have hst : (s.chan k.chan).st = .loading := (hi.load k.chan).mpr rfl
  have hr : (s.chan k.chan).ready = false := (hi.chan k.chan).unready (by simp [hst])
  have hown : (s.endLoad.enter k.chan .idle).chan k.chan = { s.chan k.chan with st := .idle } := by
    rw [enter_chan, endLoad_chan]
  have hoth : (s.endLoad.enter k.chan .idle).chan (chanOther k.chan) = s.chan (chanOther k.chan) := by
    rw [enter_other, endLoad_chan]
  have hslot (i : Fin 48) : (s.endLoad.enter k.chan .idle).slot i = { s.slot i with reserved := false } := by
    rw [enter_slot, endLoad_slot]
  refine loadDone_lawful ?_ (by simp [h1]) (by simp [h1]) (fun i => by rw [hslot]) (chan_cases k.chan ?_ ?_) he hc
    (by simp [h2]) (by simp [h2]) ?_ st detail
  · refine hi.rest (st := .idle) (by rw [hst]; rfl) rfl hr hown hoth (fun i => by rw [hslot]) (fun i => by rw [hslot])
      ?_ (by simp)
    cases k.chan <;> simp
  · rw [hown]; simpa [h6] using hline k.chan
  · rw [hoth]; simpa [h6] using hline _
  · have := enter_sameHolders s.endLoad k.chan .idle
    rwa [h3] at this

theorem cancelLoad_lawful (h : s.lawful = true) : s.cancelLoad.lawful = true := by
  cases hc : s.loader.ctx with
  | none => rw [cancelLoad_none hc]; exact h
  | some k =>
    rw [cancelLoad_eq hc]
    exact failLoad_lawful (loading_of_lawful h hc) _ _

end Sys2Proof.Machine
end

section
/-! The apply of a load: what a program in an image is, what its installation leaves, and that a load's completion
keeps the laws of the machine. -/

namespace Sys2Proof.Machine

variable {s t : State} {c : Chan} {k : LoadCtx} {p : Program}

/-! The program in an image. -/

/-- The tone a record gives is for the slot its index names (R161). -/
theorem toneOfRecord_slot {r : SlotRecord} {q : Fin 48 × Tone} {i : Fin 48} (h : toneOfRecord r = some q)
    (hi : slotOf r.index = some i) : q.1 = i := by
  unfold toneOfRecord at h
  rw [hi] at h
  dsimp only at h
  split at h
  · simp at h
  · cases h; rfl

/-- Slot records that pass their tests declare every slot once, and none declared before (R161, test 6). -/
theorem testSlots_distinct {img : Nat → Byte} {n i : Nat} {seen : List (Fin 48)} {slots : List (Fin 48 × Tone)}
    (h : testSlots img n i seen = .ok slots) :
    (slots.map Prod.fst).Nodup ∧ ∀ q ∈ slots, q.1 ∉ seen := by
  induction n generalizing i seen slots with
  | zero => cases h; simp
  | succ n ih =>
    unfold testSlots at h
    dsimp only at h
    split at h
    · cases h
    · rename_i j hj
      split at h
      · cases h
      · rename_i hseen
        split at h
        · cases h
        · rename_i q hq
          split at h
          · rename_i rest hrest
            cases h
            obtain ⟨h1, h2⟩ := ih hrest
            have hqj := toneOfRecord_slot hq hj
            have hseen : j ∉ seen := by simpa using hseen
            refine ⟨?_, fun r hr => ?_⟩
            · rw [List.map_cons, List.nodup_cons]
              refine ⟨fun h0 => ?_, h1⟩
              obtain ⟨r, hr, hrq⟩ := List.mem_map.mp h0
              exact h2 r hr (by simp [hrq, hqj])
            · rcases List.mem_cons.mp hr with rfl | hr
              · rw [hqj]; exact hseen
              · exact fun h0 => h2 r hr (List.mem_cons_of_mem _ h0)
          · cases h

theorem entryWithSlot_slot {i : Fin 48} {r : RawEntry} {e : HopEntry} (h : entryWithSlot i r = some e) :
    e.slot = i := by
  unfold entryWithSlot at h
  split at h
  · split at h
    · cases h
    · split at h
      · cases h
      · cases Option.some.inj h; rfl
  · cases h

/-- Hop records that pass their tests are as many as the header counts, and name declared slots (R161, test 7). -/
theorem testHops_declared {img : Nat → Byte} {m n j : Nat} {declared : List (Fin 48)} {hops : List HopEntry}
    (h : testHops img m declared n j = .ok hops) : hops.length = n ∧ ∀ e ∈ hops, e.slot ∈ declared := by
  induction n generalizing j hops with
  | zero => cases h; simp
  | succ n ih =>
    unfold testHops at h
    dsimp only at h
    split at h
    · cases h
    · rename_i i hi
      split at h
      · cases h
      · rename_i hd
        split at h
        · cases h
        · rename_i e he
          split at h
          · rename_i rest hrest
            cases h
            obtain ⟨h1, h2⟩ := ih hrest
            refine ⟨by simp [h1], fun e' he' => ?_⟩
            rcases List.mem_cons.mp he' with rfl | he'
            · rw [entryWithSlot_slot he]; simpa using hd
            · exact h2 e' he'
          · cases h

/-- What a program in an image holds (R135, R161). -/
structure Program.Fits (p : Program) : Prop where
  distinct : (p.slots.map Prod.fst).Nodup
  declared : ∀ e ∈ p.hops, ∃ q ∈ p.slots, q.1 = e.slot
  nonempty : p.hops ≠ []
  room : p.hops.length ≤ 64

theorem programIn_fits {img : Nat → Byte} (h : programIn img = some p) : p.Fits := by
  unfold programIn at h
  split at h
  · rename_i hcounts
    simp only [countsInRange, Bool.and_eq_true, decide_eq_true_eq] at hcounts
    unfold parseRecords at h
    split at h
    · simp [Except.toOption] at h
    · rename_i slots hslots
      split at h
      · simp [Except.toOption] at h
      · rename_i hops hhops
        cases h
        obtain ⟨h1, h2⟩ := testHops_declared hhops
        refine ⟨(testSlots_distinct hslots).1, fun e he => ?_, fun h0 => ?_, by simp only [h1]; exact hcounts.2⟩
        · simpa using h2 e he
        · exact hcounts.1.2 (by rw [← h1]; simpa using h0)
  · cases h

/-! The program's slots (R12, R178). -/

/-- The tone of a slot after the apply has written it: a pinned one takes the label alone (R12). -/
def Slot.programmed (x : Slot) (new : Tone) : Tone :=
  match x.tone with
  | some old => if x.pins = 0 then new else { old with label := new.label }
  | none => new

theorem writeProgramSlot_eq (s : State) (q : Fin 48 × Tone) :
    s.writeProgramSlot q = s.setSlot q.1 { s.slot q.1 with tone := some ((s.slot q.1).programmed q.2) } := by
  unfold State.writeProgramSlot Slot.programmed
  dsimp only
  cases (s.slot q.1).tone with
  | none => rfl
  | some old => dsimp only; split <;> rfl

theorem setSlot_slot (s : State) (i j : Fin 48) (x : Slot) :
    (s.setSlot i x).slot j = if j = i then x else s.slot j := by
  split
  · rename_i h; rw [h]; exact State.setSlot_slot_same s i x
  · rename_i h; exact State.setSlot_slot_other s x h

/-- The apply's writes change the slots alone. -/
theorem writeSlots_eq (s : State) (qs : List (Fin 48 × Tone)) : qs.foldl State.writeProgramSlot s =
    { s with slots := (qs.foldl State.writeProgramSlot s).slots } := by
  induction qs generalizing s with
  | nil => rfl
  | cons q qs ih =>
    rw [List.foldl_cons, ih, writeProgramSlot_eq]
    rfl

theorem writeSlots_chan (s : State) (qs : List (Fin 48 × Tone)) (d : Chan) :
    (qs.foldl State.writeProgramSlot s).chan d = s.chan d := by
  rw [writeSlots_eq]; cases d <;> rfl

/-- The apply's writes keep the pins and the marks, and leave each tone that they do not write. -/
theorem writeSlots_slot (s : State) (qs : List (Fin 48 × Tone)) (i : Fin 48) :
    ((qs.foldl State.writeProgramSlot s).slot i).pins = (s.slot i).pins ∧
    ((qs.foldl State.writeProgramSlot s).slot i).reserved = (s.slot i).reserved ∧
    ((∀ q ∈ qs, q.1 ≠ i) → ((qs.foldl State.writeProgramSlot s).slot i).tone = (s.slot i).tone) ∧
    ((s.slot i).tone.isSome = true ∨ (∃ q ∈ qs, q.1 = i) →
      ((qs.foldl State.writeProgramSlot s).slot i).tone.isSome = true) := by
  induction qs generalizing s with
  | nil => simp
  | cons q qs ih =>
    obtain ⟨h1, h2, h3, h4⟩ := ih (s.writeProgramSlot q)
    have hs : (s.writeProgramSlot q).slot i =
        if i = q.1 then { s.slot q.1 with tone := some ((s.slot q.1).programmed q.2) } else s.slot i := by
      rw [writeProgramSlot_eq, setSlot_slot]
    rw [List.foldl_cons]
    by_cases hi : i = q.1
    · rw [if_pos hi, ← hi] at hs
      rw [hs] at h1 h2 h4
      exact ⟨h1, h2, fun h => absurd hi.symm (h q (by simp)), fun _ => h4 (.inl rfl)⟩
    · rw [if_neg hi] at hs
      rw [hs] at h1 h2 h3 h4
      refine ⟨h1, h2, fun h => h3 fun r hr => h r (by simp [hr]), fun h => h4 ?_⟩
      rcases h with h | ⟨r, hr, hri⟩
      · exact .inl h
      · rcases List.mem_cons.mp hr with rfl | hr
        · exact absurd hri.symm hi
        · exact .inr ⟨r, hr, hri⟩

/-- A slot that a program declares once takes its tone (R12). -/
theorem writeSlots_declared {qs : List (Fin 48 × Tone)} (hd : (qs.map Prod.fst).Nodup) (s : State) {i : Fin 48}
    {tone : Tone} (hq : (i, tone) ∈ qs) :
    ((qs.foldl State.writeProgramSlot s).slot i).tone = some ((s.slot i).programmed tone) := by
  induction qs generalizing s with
  | nil => simp at hq
  | cons q qs ih =>
    rw [List.map_cons, List.nodup_cons] at hd
    have hs (j : Fin 48) : (s.writeProgramSlot q).slot j =
        if j = q.1 then { s.slot q.1 with tone := some ((s.slot q.1).programmed q.2) } else s.slot j := by
      rw [writeProgramSlot_eq, setSlot_slot]
    rw [List.foldl_cons]
    rcases List.mem_cons.mp hq with h | h
    · subst h
      have hno : ∀ r ∈ qs, r.1 ≠ i := fun r hr h0 => hd.1 (List.mem_map.mpr ⟨r, hr, h0⟩)
      rw [(writeSlots_slot _ qs i).2.2.1 hno, hs, if_pos rfl]
    · rw [ih hd.2 _ h, hs, if_neg]
      rintro rfl
      exact hd.1 (List.mem_map.mpr ⟨_, h, rfl⟩)

/-! The installation (R42, R178). -/

theorem installProgram_eq (s : State) (c : Chan) (p : Program) : s.installProgram c p =
    (p.slots.foldl State.writeProgramSlot (s.emptyQueue c)).joined c p.hops := by
  have hq : ((p.slots.foldl State.writeProgramSlot (s.emptyQueue c)).chan c).queue = [] := by
    rw [writeSlots_chan, (emptyQueue_chan s c).1]
  unfold State.joined
  rw [hq]
  rfl

/-- What the installation of a program leaves, field by field (R42, R178). -/
structure Installed (s t : State) (c : Chan) (p : Program) : Prop where
  own : t.chan c = { s.chan c with queue := p.hops }
  other : t.chan (chanOther c) = s.chan (chanOther c)
  pins : ∀ i, (t.slot i).pins = (s.slot i).pins - entryPins (s.chan c).queue i + entryPins p.hops i
  reserved : ∀ i, (t.slot i).reserved = (s.slot i).reserved
  unnamed : ∀ i, (∀ q ∈ p.slots, q.1 ≠ i) → (t.slot i).tone = (s.slot i).tone
  named : p.Fits → ∀ i tone, (i, tone) ∈ p.slots → (t.slot i).tone = some (Slot.programmed
    { s.slot i with pins := (s.slot i).pins - entryPins (s.chan c).queue i } tone)
  outside : t.store = s.store ∧ t.loader = s.loader ∧ t.link = s.link ∧ t.gateLine = s.gateLine ∧
    t.epoch = s.epoch ∧ t.reports = s.reports

theorem installProgram_installed (s : State) (c : Chan) (p : Program) :
    Installed s (s.installProgram c p) c p := by
  obtain ⟨he, heo⟩ := emptyQueue_chan s c
  have hes := emptyQueue_slot s c
  rw [installProgram_eq]
  obtain ⟨hj, hjo⟩ := joined_chan (p.slots.foldl State.writeProgramSlot (s.emptyQueue c)) c p.hops
  have hjs := joined_slot (p.slots.foldl State.writeProgramSlot (s.emptyQueue c)) c p.hops
  have hw (i : Fin 48) := writeSlots_slot (s.emptyQueue c) p.slots i
  rw [writeSlots_chan, he] at hj
  rw [writeSlots_chan, heo] at hjo
  refine ⟨hj, hjo, fun i => ?_, fun i => ?_, fun i h => ?_, fun hf i tone h => ?_, ?_⟩
  · rw [hjs, (hw i).1, hes]; rfl
  · rw [hjs, (hw i).2.1, hes]
  · rw [hjs, (hw i).2.2.1 h, hes]
  · rw [hjs, writeSlots_declared hf.distinct _ h, hes]
  · unfold State.joined
    rw [pinAll_eq, writeSlots_eq]
    unfold State.emptyQueue
    rw [unpinAll_eq]
    simp

/-- The program that a load installs on its LOADING channel keeps the laws of what the hop engine touches (R5, R178). -/
theorem installProgram_inside {l : Option Chan} (he : s.Inside l) (hst : (s.chan c).st = .loading) (hf : p.Fits) :
    (s.installProgram c p).Inside l := by
  obtain ⟨hch, hoth⟩ := emptyQueue_chan s c
  have hx := he.chan c
  have hempty := emptyQueue_inside (c := c) he (.inl (hx.unready (by simp [hst])))
  have hslot (i : Fin 48) := writeSlots_slot (s.emptyQueue c) p.slots i
  have hcur : (s.chan c).cur = none := by
    have := hx.hop
    rw [hst] at this
    simpa [ChanState.holdsHop] using this
  rw [installProgram_eq]
  refine joined_inside (hempty.slots (fun d => writeSlots_chan _ _ d) (fun i => (hslot i).1)
    fun i _ h => (hslot i).2.2.2 (.inl h)) ?_ fun e h => (hslot e.slot).2.2.2 (.inr (hf.declared e h))
  rw [writeSlots_chan, hch]
  simp [hcur, hf.room]

/-! The completion of a load (R173 to R178). -/

/-- Without the start flag an apply ends as a load without one does, over the program it has installed (R178). -/
theorem applyLoad_rest (h : k.start = false) (s : State) (p : Program) :
    s.applyLoad k p = (s.installProgram k.chan p).failLoad k .ok 0xFF#8 := by
  simp only [State.applyLoad, h, State.failLoad, Bool.false_eq_true, if_false]

theorem applyLoad_start (h : k.start = true) (s : State) (p : Program) :
    s.applyLoad k p = ((s.installProgram k.chan p).endLoad.startChannel k.chan).report (loadDone k .ok 0xFF#8) := by
  simp only [State.applyLoad, h, if_true]

theorem endLoad_inside {l : Option Chan} (he : s.Inside l) : s.endLoad.Inside l :=
  he.slots (endLoad_chan s) (fun i => by rw [endLoad_slot]) fun i _ h => by rw [endLoad_slot]; exact h

theorem applyLoad_lawful (h : s.Loading k) (hf : p.Fits) : (s.applyLoad k p).lawful = true := by
  have hp := installProgram_installed s k.chan p
  have hpi := installProgram_inside (c := k.chan) h.inside h.st hf
  obtain ⟨h1, h2, h3, h4, h5, h6⟩ := hp.outside
  have hpl : ∀ d, ((s.installProgram k.chan p).chan d).gate.hold.line =
      (((s.installProgram k.chan p).chan d).cfg.follow && (s.installProgram k.chan p).gateLine) := by
    rw [h4]
    exact chan_cases k.chan (by rw [hp.own]; exact h.line _) (by rw [hp.other]; exact h.line _)
  cases hs : k.start with
  | false =>
    rw [applyLoad_rest hs]
    exact failLoad_lawful ⟨hpi, by rw [h2]; exact h.ctx, hpl, h.engine.congr h1 h2 (by rw [h6]; exact .rfl' _)⟩ _ _
  | true =>
    rw [applyLoad_start hs]
    obtain ⟨e1, e2, e3, -, -, e6⟩ := endLoad_kept (s.installProgram k.chan p)
    have hm := (EngineMoves.refl (s.installProgram k.chan p).endLoad).startChannel k.chan
    have hin : ((s.installProgram k.chan p).endLoad.startChannel k.chan).Inside none :=
      startChannel_inside (endLoad_inside hpi) (.inr (by rw [endLoad_chan, hp.own]; exact h.st))
        (by cases k.chan <;> simp) (by simp)
    refine loadDone_lawful hin (by rw [hm.loader, e1]) (by rw [hm.loader, e1]) (fun i => ?_) (fun d => ?_) h.engine
      h.ctx (by rw [hm.store, e2, h1]) (by rw [hm.store, e2, h1]) ?_ _ _
    · rw [(hm.slot i).2, endLoad_slot]
    · obtain ⟨m1, -, m3⟩ := hm.setup d
      rw [m1, m3, hm.gateLine, endLoad_chan, e6]
      exact hpl d
    · have := hm.holders
      rwa [e3, h6] at this

theorem corruptLoad_lawful (h : s.Loading k) : (s.corruptLoad k).lawful = true := by
  have hd : (s.setDir k.area (s.store.dir k.area).damaged).Loading k :=
    h.congr (by simp) (by simp) (by simp) (by simp) rfl rfl (by simp)
  exact failLoad_lawful hd _ _

theorem checkLoad_lawful (h : s.Loading k) (hf : p.Fits) : (s.checkLoad k p).lawful = true := by
  unfold State.checkLoad
  repeat' split
  · exact failLoad_lawful h _ _
  · exact failLoad_lawful h _ _
  · exact applyLoad_lawful h hf

/-- A load's completion keeps the laws of the machine (R173 to R178). -/
theorem completeLoad_lawful (h : s.lawful = true) (hc : s.loader.ctx = some k) :
    (s.completeLoad k).lawful = true := by
  have hl := loading_of_lawful h hc
  unfold State.completeLoad
  split
  · exact corruptLoad_lawful hl
  · rename_i r _
    have hst : (s.stage k r).Loading k := hl.congr rfl (fun d => by cases d <;> rfl) rfl rfl rfl rfl rfl
    dsimp only
    split
    · exact corruptLoad_lawful hst
    · split
      · exact corruptLoad_lawful hst
      · rename_i p hp
        exact checkLoad_lawful hst (programIn_fits hp)

end Sys2Proof.Machine
end

section
/-! The resets, the accepted frames and the commands keep the laws of the machine. -/

open Sys2Proof

namespace Sys2Proof.Machine

variable {s t : State} {c : Chan} {k : LoadCtx}

/-! Requests that cancel a load where they meet one (R179). -/

theorem stopOrCancel_lawful (h : s.lawful = true) (now : Bool) : (s.stopOrCancel c now).lawful = true := by
  unfold State.stopOrCancel
  split
  · exact cancelLoad_lawful h
  · exact lawful_of_moves h ((EngineMoves.refl s).stopChannel c now)
      (stopChannel_inside ((lawful_iff s).mp h).1 now)

theorem opStop_keeps (channel : Byte) (now : Bool) : KeepsLaws (opStop channel now) := fun s h => by
  unfold opStop
  split
  · exact h
  · exact stopOrCancel_lawful h now

theorem opStopMode_keeps (channel mode : Byte) : KeepsLaws (opStopMode channel mode) := fun s h => by
  unfold opStopMode
  repeat' split
  exacts [opStop_keeps channel _ s h, opStop_keeps channel _ s h, h]

theorem emptyQueue_lawful (h : s.lawful = true) (hst : (s.chan c).st = .loading) :
    (s.emptyQueue c).lawful = true := by
  have hi := ((lawful_iff s).mp h).1
  exact lawful_of_moves h ((EngineMoves.refl s).emptyQueue c)
    (emptyQueue_inside hi (.inl ((hi.chan c).unready (by simp [hst]))))

theorem flush_lawful (h : s.lawful = true) : (s.flush c).lawful = true := by
  by_cases hst : (s.chan c).st = .loading
  · have : s.flush c = (s.emptyQueue c).cancelLoad := by simp only [State.flush, hst, if_true]
    rw [this]
    exact cancelLoad_lawful (emptyQueue_lawful h hst)
  · exact lawful_of_moves h ((EngineMoves.refl s).flush c hst) (flush_inside ((lawful_iff s).mp h).1 hst)

theorem opHopFlush_keeps (channel : Byte) : KeepsLaws (opHopFlush channel) := fun s h => by
  unfold opHopFlush
  split
  · exact h
  · exact flush_lawful h

/-! Autostart (R182). -/

/-- The acceptance of a load does not read the engine's state. -/
theorem LoadTaken.of_setEngine {e : EngineState} (h : LoadTaken (s.setEngine e) t k) : LoadTaken s t k where
  own := by simpa using h.own
  other := by simpa using h.other
  slot i := by
    have := h.slot i
    rw [State.setEngine_slot] at this
    exact this
  gateLine := h.gateLine
  store := h.store
  loader := h.loader
  holders := h.holders
  epoch := h.epoch

theorem loader_chan (s : State) (l : Loader) (d : Chan) : State.chan { s with loader := l } d = s.chan d := by
  cases d <;> rfl

/-- The autostart list's position is read by no law. -/
theorem autoPos_lawful (h : s.lawful = true) (n : Nat) :
    State.lawful { s with loader := { s.loader with autoPos := n } } = true := h

/-- A report that takes an IDLE store engine (R144, R182). -/
theorem reading_lawful (h : s.lawful = true) (hi : s.store.engine = .idle) {r : ReportBody}
    (hr : reportClass r = .completion) : ((s.setEngine .reading).report r).lawful = true := by
  obtain ⟨hop, hc, hcm, hp, hopen⟩ := ((lawful_iff s).mp h).2.engine.free hi
  have hm : ((s.setEngine .reading).report r).reports = { s.reports with completion := some ⟨r, 1⟩ } :=
    make_completion hr hopen
  have hop' : ((s.setEngine .reading).report r).store.op = none := hop
  refine store_lawful h hc (.of_eq (by simp) (by simp)) (by simp) (by simpa using hc) (by simp)
    ⟨?_, ?_, fun h0 => ?_⟩
  · rw [hm, hop']; simp [hc, hp]; rfl
  · rw [hm, hop']; simp [hopen]
  · rw [hm] at h0; simp [hopen] at h0

theorem autoStep_lawful (h : s.lawful = true) (hi : s.store.engine = .idle) (a : AutoArea) :
    (s.autoStep a).lawful = true := by
  have hp := autoPos_lawful h (s.loader.autoPos + 1)
  unfold State.autoStep
  dsimp only
  repeat' split
  · exact reading_lawful hp hi rfl
  · exact reading_lawful hp hi rfl
  · exact reading_lawful hp hi rfl
  · rename_i hst
    exact acceptLoad_lawful hp hi (by rw [loader_chan]; simpa using hst) (acceptLoad_taken _ _).of_setEngine

/-! The resets (R126, R127, R129). -/

/-- A channel as a CHANNELS reset leaves it, its gate's hold set being `h` (R43, R73, R86, R104). -/
def Channel.cleared (ch : Channel) (h : HoldSet) : Channel :=
  { ch with st := .idle, queue := [], cur := none, dwell := 0, stopAtEnd := false, acc := 0#32, selfHead := false,
            ready := false, timer := none, coherentNow := none,
            gate := { st := .closed, gain := 0, hold := h, periodGain := 0 } }

theorem resetChannel_cleared (s : State) (c : Chan) :
    (s.resetChannel c).chan c = (s.chan c).cleared (s.holdAfterReset c) ∧
      (s.resetChannel c).chan (chanOther c) = s.chan (chanOther c) := by
  unfold State.resetChannel
  dsimp only
  rw [moveGate_chan, moveGate_other, enter_chan, enter_other, State.setChan_chan_same, State.setChan_chan_other]
  exact ⟨rfl, rfl⟩

/-- What a CHANNELS reset of a channel leaves outside it. -/
theorem resetChannel_kept (s : State) (c : Chan) : (s.resetChannel c).slots = s.slots ∧
    (s.resetChannel c).store = s.store ∧ (s.resetChannel c).loader = s.loader ∧
    (s.resetChannel c).gateLine = s.gateLine ∧ (s.resetChannel c).epoch = s.epoch ∧
    s.reports.SameHolders (s.resetChannel c).reports := by
  refine ⟨by simp [State.resetChannel], by simp [State.resetChannel], by simp [State.resetChannel],
    by simp [State.resetChannel], by simp [State.resetChannel], ?_⟩
  unfold State.resetChannel
  dsimp only
  refine .trans ?_ (moveGate_sameHolders _ c _)
  refine .trans ?_ (enter_sameHolders _ c .idle)
  rw [State.setChan_reports]
  exact .rfl' _

/-- A channel that rests without a hop, a queue or readiness, under NO_HOP, keeps its laws. -/
theorem Channel.Sound.cleared (ch : Channel) {h : HoldSet} (hb : h.blank = false) (he : h.ending = false)
    (hn : h.noHop = true) : (ch.cleared h).Sound false where
  gate := by simp [Channel.cleared, Gate.lawful, HoldSet.isEmpty, hn]
  ramp _ := .inr rfl
  noHop := hn
  shut _ := rfl
  ending := he
  blank h0 := by simp [Channel.cleared] at h0
  blankOnly _ h0 := by simp [Channel.cleared, hb] at h0
  hop := rfl
  dwell := .inr (.inr rfl)
  stop h0 := by simp [Channel.cleared] at h0
  room := by simp [Channel.cleared]
  self h0 := by simp [Channel.cleared] at h0
  ready h0 := by simp [Channel.cleared] at h0
  timer h0 := by simp [Channel.cleared] at h0

theorem unpinSlots_chan (s : State) (d : Chan) : s.unpinSlots.chan d = s.chan d := by
  cases d <;> simp [State.unpinSlots]

theorem unpinSlots_slot (s : State) (i : Fin 48) :
    s.unpinSlots.slot i = { s.slot i with pins := 0, reserved := false } := by
  simp [State.unpinSlots, State.slot, Vector.get_ofFn]

theorem unpinSlots_kept (s : State) : s.unpinSlots.store = s.store ∧ s.unpinSlots.loader = s.loader ∧
    s.unpinSlots.gateLine = s.gateLine ∧ s.unpinSlots.reports = s.reports ∧ s.unpinSlots.epoch = s.epoch := by
  simp [State.unpinSlots]

theorem cancelLoad_ctx (s : State) : s.cancelLoad.loader.ctx = none := by
  cases hc : s.loader.ctx with
  | none => rw [cancelLoad_none hc, hc]
  | some k => rw [cancelLoad_eq hc, (failLoad_ended s k _ _).loader]

/-- A CHANNELS reset of every block (R126). -/
theorem resetChannels_lawful (h : s.lawful = true) : s.resetChannels.lawful = true := by
  have hu := cancelLoad_lawful h
  have hctx := cancelLoad_ctx s
  unfold State.resetChannels
  generalize s.cancelLoad = u at hu hctx
  obtain ⟨-, ha⟩ := (lawful_iff u).mp hu
  obtain ⟨hA, hAB⟩ := resetChannel_cleared u .A
  obtain ⟨hB, hBA⟩ := resetChannel_cleared (u.resetChannel .A) .B
  obtain ⟨-, a1, a2, a3, -, a4⟩ := resetChannel_kept u .A
  obtain ⟨-, b1, b2, b3, -, b4⟩ := resetChannel_kept (u.resetChannel .A) .B
  generalize hv : (u.resetChannel .A).resetChannel .B = v at *
  obtain ⟨v1, v2, v3, v4, -⟩ := unpinSlots_kept v
  have hvc (d : Chan) : ∃ ch x, v.unpinSlots.chan d = Channel.cleared ch x ∧ x.blank = false ∧ x.ending = false ∧
      x.noHop = true ∧ x.line = (ch.cfg.follow && u.gateLine) := by
    rw [unpinSlots_chan]
    cases d with
    | A => exact ⟨_, _, hBA.trans hA, rfl, rfl, rfl, rfl⟩
    | B => exact ⟨_, _, hB, rfl, rfl, rfl, by rw [← a3]; rfl⟩
  have hctx' : v.unpinSlots.loader.ctx = none := by rw [v2, b2, a2, hctx]
  refine (lawful_iff _).mpr ⟨⟨fun d => ?_, ?_, fun i => ?_, fun d => ?_⟩, fun i => ?_, fun _ => ?_, fun d => ?_, ?_⟩
  · obtain ⟨ch, x, hd, h1, h2, h3, -⟩ := hvc d
    rw [hd]; exact .cleared ch h1 h2 h3
  · obtain ⟨ch, x, hd, -⟩ := hvc .A
    rw [hd]; simp [Channel.cleared]
  · obtain ⟨chA, xA, hdA, -⟩ := hvc .A
    obtain ⟨chB, xB, hdB, -⟩ := hvc .B
    rw [unpinSlots_slot, show v.unpinSlots.chA = _ from hdA, show v.unpinSlots.chB = _ from hdB]
    simp [Channel.cleared, Channel.pinsOn]
  · obtain ⟨ch, x, hd, -⟩ := hvc d
    rw [hd, State.loadChan, hctx']
    simp [Channel.cleared]
  · rw [unpinSlots_slot, loadUse_none hctx']; simp
  · rw [v2, b2, a2]; exact ha.staging hctx
  · obtain ⟨ch, x, hd, -, -, -, h4⟩ := hvc d
    rw [hd, v3, b3, a3]
    exact h4
  · exact ha.engine.congr (v1.trans (b1.trans a1)) (v2.trans (b2.trans a2)) (by rw [v4]; exact a4.trans b4)

theorem opResetChannels_keeps : KeepsLaws opResetChannels := fun _ h => resetChannels_lawful h

theorem opResetFull_keeps : KeepsLaws opResetFull := fun s h => by
  unfold opResetFull
  split <;> exact h

theorem opResetScope_keeps (scope : Byte) : KeepsLaws (opResetScope scope) := fun s h => by
  unfold opResetScope
  repeat' split
  exacts [opResetChannels_keeps s h, opResetFull_keeps s h, h]

/-- A FULL or cold reset leaves the laws, whatever the store holds (R129, R148, R168). -/
theorem restart_lawful (s : State) (store : Store) (straps : Straps) (cause : ResetCause) (ports : Ports) :
    (s.restart store straps cause ports).lawful = true := by
  have h3 := resetLawful.1
  refine lawful_congr h3 (.of_eq rfl fun d => by cases d <;> rfl) rfl rfl rfl rfl ⟨?_, ?_, fun _ => rfl⟩ <;> rfl

end Sys2Proof.Machine
end

section
/-! The link, the commands and the step keep the laws of the machine. -/

open Sys2Proof

namespace Sys2Proof.Machine

variable {s t : State} {op : State → State × List Byte}

/-! Every request. -/

/-- An operation that reads alone keeps the laws. -/
theorem keepsLaws_of_same (ho : ∀ s, (op s).1 = s) : KeepsLaws op := fun s h => by rw [ho]; exact h

theorem opPing_keeps (data : List Byte) : KeepsLaws (opPing data) := keepsLaws_of_same fun _ => rfl
theorem opIdentify_keeps : KeepsLaws opIdentify := keepsLaws_of_same fun _ => rfl
theorem opStatus_keeps : KeepsLaws opStatus := keepsLaws_of_same fun _ => rfl
theorem opEpochGet_keeps : KeepsLaws opEpochGet := keepsLaws_of_same fun _ => rfl
theorem answerUnknown_keeps (kind seq : Byte) : KeepsLaws (answerUnknown kind seq) := keepsLaws_of_same fun _ => rfl

theorem opReportConfig_keeps (mask : BitVec 16) : KeepsLaws (opReportConfig mask) := fun s h => by
  unfold opReportConfig
  split <;> exact h

/-- Each owner's operation keeps the laws of the machine (Table 6-4). -/
theorem ownerOf_keeps (k : Kind) (p : List Byte) (seq : Byte) (wp : Bool) : KeepsLaws (ownerOf k p seq wp) := by
  cases k with
  | ping => exact opPing_keeps _
  | identify => exact opIdentify_keeps
  | status => exact opStatus_keeps
  | reset => exact opResetScope_keeps _
  | slotSet => exact opSlotSet_keeps _ _ _ _
  | slotClear => exact opSlotClear_keeps _
  | slotGet => exact opSlotGet_keeps _
  | epoch => exact opEpochMode_keeps _
  | epochGet => exact opEpochGet_keeps
  | hopAppend => exact opHopAppend_keeps _ _ _
  | hopFlush => exact opHopFlush_keeps _
  | queueGet => exact opQueueGet_keeps _ _ _
  | start => exact opStart_keeps _
  | stop => exact opStopMode_keeps _ _
  | channelConfig => exact opChannelConfig_keeps _ _ _ _ _ _ _
  | channelGet => exact opChannelGet_keeps _
  | gate => exact opGateAction_keeps _ _
  | reportConfig => exact opReportConfig_keeps _
  | storeErase => exact opStoreErase_keeps _ _ _
  | storeWrite => exact opStoreWrite_keeps _ _ _ _ _
  | storeCommit => exact opStoreCommit_keeps _ _ _ _ _ _
  | storeRevoke => exact opStoreRevoke_keeps _ _ _
  | storeRead => exact opStoreRead_keeps _ _ _
  | storeBlank => exact opStoreBlank_keeps _
  | storeDigest => exact opStoreDigest_keeps _ _ _
  | storeInfo => exact opStoreInfo_keeps
  | load => exact opLoad_keeps _ _ _ _

/-! The link. -/

/-- The laws do not read the link. -/
theorem link_lawful (h : s.lawful = true) (l : Link) : State.lawful { s with link := l } = true := h

theorem refuseWindow_lawful (h : s.lawful = true) (kind seq : Byte) : (s.refuseWindow kind seq).lawful = true := by
  unfold State.refuseWindow
  split
  · exact report_lawful h rfl
  · exact link_lawful h _

theorem execute_lawful (h : s.lawful = true) (ho : KeepsLaws op) (seq : Byte) (check : BitVec 16) :
    (s.execute seq check op).lawful = true := link_lawful (ho s h) _

theorem acceptFrame_lawful (h : s.lawful = true) (ho : KeepsLaws op) (kind seq : Byte) (payload : List Byte) :
    (s.acceptFrame kind seq payload op).lawful = true := by
  unfold State.acceptFrame
  dsimp only
  split
  · exact h
  · split
    · exact link_lawful h _
    · exact refuseWindow_lawful h _ _
  · split
    · exact execute_lawful (link_lawful h _) ho _ _
    · exact refuseWindow_lawful (link_lawful h _) _ _
  · split
    · exact execute_lawful h ho _ _
    · exact refuseWindow_lawful h _ _

theorem answer_keeps (ho : KeepsLaws op) (k : Kind) (seq : Byte) (payload : List Byte) :
    KeepsLaws (answer k seq payload op) := fun s h => by
  unfold answer
  split
  · exact ho s h
  · exact h

theorem acceptKind_lawful (h : s.lawful = true) (ho : KeepsLaws op) (k : Kind) (seq : Byte)
    (payload : List Byte) : (s.acceptKind k seq payload op).lawful = true :=
  finish_lawful (acceptFrame_lawful h (answer_keeps ho k seq payload) _ _ _)

theorem acceptUnknown_lawful (h : s.lawful = true) (kind seq : Byte) (payload : List Byte) :
    (s.acceptUnknown kind seq payload).lawful = true :=
  finish_lawful (acceptFrame_lawful h (answerUnknown_keeps kind seq) _ _ _)

theorem frameEnds_lawful (h : s.lawful = true) (pins : Pins) : (s.frameEnds pins).lawful = true :=
  noteClock_lawful (link_lawful h _) _

/-- A request of the host keeps the laws where its owner's operation does. -/
theorem request_lawful (h : s.lawful = true) (ho : KeepsLaws op) (r : Req) (k : Kind) (payload : List Byte) :
    (s.request r k payload op).lawful = true := by
  unfold State.request
  repeat' split
  · exact h
  · exact acceptKind_lawful (frameEnds_lawful h _) ho _ _ _
  · exact acceptKind_lawful (frameEnds_lawful h _) (ownerOf_keeps _ _ _ _) _ _ _

theorem receiverFault_lawful (h : s.lawful = true) (reason : FaultReason) :
    (s.receiverFault reason).lawful = true := by
  have hh : s.hunt.lawful = true := link_lawful h _
  exact finish_lawful (report_lawful hh rfl)

theorem checkFrame_lawful (h : s.lawful = true) (buf : List Byte) (pins : Pins) :
    (s.checkFrame buf pins).lawful = true := by
  unfold State.checkFrame State.acceptBytes
  dsimp only
  repeat' split
  · exact acceptKind_lawful (frameEnds_lawful h _) (ownerOf_keeps _ _ _ _) _ _ _
  · exact acceptUnknown_lawful (frameEnds_lawful h _) _ _ _
  · exact receiverFault_lawful h _

theorem receive_lawful (h : s.lawful = true) (rx : RxState) (buf : List Byte) : (s.receive rx buf).lawful = true :=
  link_lawful h _

theorem takeByte_lawful (h : s.lawful = true) (b : Byte) (pins : Pins) : (s.takeByte b pins).lawful = true := by
  unfold State.takeByte
  dsimp only
  split
  · split
    · exact receive_lawful h _ _
    · exact h
  · split
    · exact receiverFault_lawful h _
    · exact receive_lawful h _ _
  · exact receive_lawful h _ _
  · exact receive_lawful h _ _
  · exact receive_lawful h _ _
  · exact receive_lawful h _ _
  · exact checkFrame_lawful h _ _

theorem transmissionEnd_lawful (h : s.lawful = true) : s.transmissionEnd.lawful = true := by
  unfold State.transmissionEnd
  split
  · exact h
  · exact finish_lawful (link_lawful h _)
  · exact finish_lawful (link_lawful h _)
  · exact finish_lawful (link_lawful h _)

/-! The other events. -/

theorem drivePorts_lawful (h : s.lawful = true) : s.drivePorts.lawful = true :=
  lawful_same h (.of_eq (by simp) (by simp)) (by simp) (by simp) (by simp)
    (by rw [State.drivePorts_reports]; exact .rfl' _)

theorem fullReset_lawful (s : State) (straps : Straps) (stopped : Bool) :
    (s.fullReset straps stopped).lawful = true := drivePorts_lawful (restart_lawful _ _ _ _ _)

/-- A loss of retention changes bytes alone (R150). -/
theorem lose_lawful (h : s.lawful = true) (area : Nat) (changes : List (Nat × Byte)) :
    (s.lose area changes).lawful = true := h

theorem autostartStep_lawful (h : s.lawful = true) (a : AutoArea) :
    (s.takeIf s.autoDue fun s => s.autoStep a).lawful = true :=
  takeIf_lawful h fun hd => autoStep_lawful h (by simp [State.autoDue] at hd; exact hd.1) a

/-! The commands. -/

/-- A command that answers a next state answers this one. -/
theorem next_lawful {u : State} (hu : u.lawful = true) (h : (Host.Outcome.next u : Result) = .next t) :
    t.lawful = true := by
  cases h
  exact hu

/-- The completion events of the store and the loader keep the laws. -/
theorem scanComplete_lawful (h : s.lawful = true) (hi : execScanComplete s = .next t) : t.lawful = true := by
  refine next_lawful ?_ hi
  split
  · rename_i cause ho; exact finish_lawful (scanDone_lawful h ho)
  · exact h

theorem eraseComplete_lawful (h : s.lawful = true) (hi : execEraseComplete s = .next t) : t.lawful = true := by
  refine next_lawful ?_ hi
  split
  · rename_i ho; exact finish_lawful (eraseDone_lawful h ho)
  · exact h

theorem writeComplete_lawful (h : s.lawful = true) (hi : execWriteComplete s = .next t) : t.lawful = true := by
  refine next_lawful ?_ hi
  split
  · rename_i ho; exact finish_lawful (writeDone_lawful h ho)
  · exact h

theorem validation_lawful (h : s.lawful = true) (hi : execValidation s = .next t) : t.lawful = true := by
  refine next_lawful ?_ hi
  split
  · rename_i ho; exact finish_lawful (validate_lawful h ho)
  · exact h

theorem commitComplete_lawful (h : s.lawful = true) (hi : execCommitComplete s = .next t) : t.lawful = true := by
  refine next_lawful ?_ hi
  split
  · rename_i ho; exact finish_lawful (commitDone_lawful h ho)
  · exact h

theorem revokeComplete_lawful (h : s.lawful = true) (hi : execRevokeComplete s = .next t) : t.lawful = true := by
  refine next_lawful ?_ hi
  split
  · rename_i ho; exact finish_lawful (revokeDone_lawful h ho)
  · exact h

theorem noteClock_ctx (s : State) (stopped : Bool) : (s.noteClock stopped).loader.ctx = s.loader.ctx :=
  congrArg Held.ctx (held_noteClock s stopped)

theorem loadReadComplete_lawful (h : s.lawful = true) (stopped : Bool)
    (hi : execLoadReadComplete stopped s = .next t) : t.lawful = true := by
  refine next_lawful ?_ hi
  split
  · rename_i k hk
    exact finish_lawful (completeLoad_lawful (noteClock_lawful h stopped) ((noteClock_ctx s stopped).trans hk))
  · exact h

theorem autostartStep_command_lawful (h : s.lawful = true) (hi : execAutostartStep s = .next t) :
    t.lawful = true := by
  refine next_lawful ?_ hi
  split
  · exact autostartStep_lawful h _
  · exact h

theorem retentionLoss_lawful (h : s.lawful = true) (area : Nat) (changes : List (Nat × Byte))
    (hi : execRetentionLoss area changes s = .next t) : t.lawful = true := by
  unfold execRetentionLoss at hi
  split at hi
  · exact next_lawful (lose_lawful h area changes) hi
  · cases hi

/-- What a command does unless the receiver is deaf or it is not due. -/
theorem ite_lawful {b : Prop} [Decidable b] {u v : State} (hu : u.lawful = true) (hv : v.lawful = true) :
    (if b then u else v).lawful = true := by
  split
  · exact hu
  · exact hv

/-- Every command keeps the laws of the machine. -/
theorem exec_lawful (h : s.lawful = true) {i : Instr} (hi : exec i s = .next t) : t.lawful = true := by
  cases i with
  | ping r data => exact next_lawful (request_lawful h (opPing_keeps _) _ _ _) hi
  | identify r => exact next_lawful (request_lawful h opIdentify_keeps _ _ _) hi
  | status r => exact next_lawful (request_lawful h opStatus_keeps _ _ _) hi
  | resetChannels r => exact next_lawful (request_lawful h opResetChannels_keeps _ _ _) hi
  | resetFull r => exact next_lawful (request_lawful h opResetFull_keeps _ _ _) hi
  | slotSet r index word offset label => exact next_lawful (request_lawful h (opSlotSet_keeps _ _ _ _) _ _ _) hi
  | slotClear r index => exact next_lawful (request_lawful h (opSlotClear_keeps _) _ _ _) hi
  | slotGet r index => exact next_lawful (request_lawful h (opSlotGet_keeps _) _ _ _) hi
  | epochNow r => exact next_lawful (request_lawful h opEpochNow_keeps _ _ _) hi
  | epochArmOnce r => exact next_lawful (request_lawful h (opEpochArm_keeps _) _ _ _) hi
  | epochArmEvery r => exact next_lawful (request_lawful h (opEpochArm_keeps _) _ _ _) hi
  | epochDisarm r => exact next_lawful (request_lawful h (opEpochArm_keeps _) _ _ _) hi
  | epochGet r => exact next_lawful (request_lawful h opEpochGet_keeps _ _ _) hi
  | hopAppend r channel count entries =>
    exact next_lawful (request_lawful h (opHopAppend_keeps _ _ _) _ _ _) hi
  | hopFlush r channel => exact next_lawful (request_lawful h (opHopFlush_keeps _) _ _ _) hi
  | queueGet r channel first count => exact next_lawful (request_lawful h (opQueueGet_keeps _ _ _) _ _ _) hi
  | start r channel => exact next_lawful (request_lawful h (opStart_keeps _) _ _ _) hi
  | stopAtEnd r channel => exact next_lawful (request_lawful h (opStop_keeps _ _) _ _ _) hi
  | stopNow r channel => exact next_lawful (request_lawful h (opStop_keeps _ _) _ _ _) hi
  | channelConfig r channel policy cycle edge ramp follow pairTimeout =>
    exact next_lawful (request_lawful h (opChannelConfig_keeps _ _ _ _ _ _ _) _ _ _) hi
  | channelGet r channel => exact next_lawful (request_lawful h (opChannelGet_keeps _) _ _ _) hi
  | gateHold r channel => exact next_lawful (request_lawful h (opGate_keeps _ _) _ _ _) hi
  | gateRelease r channel => exact next_lawful (request_lawful h (opGate_keeps _ _) _ _ _) hi
  | reportConfig r mask => exact next_lawful (request_lawful h (opReportConfig_keeps _) _ _ _) hi
  | storeErase r area => exact next_lawful (request_lawful h (opStoreErase_keeps _ _ _) _ _ _) hi
  | storeWrite r area chunk data =>
    exact next_lawful (request_lawful h (opStoreWrite_keeps _ _ _ _ _) _ _ _) hi
  | storeCommit r area autostart channel startAfter =>
    exact next_lawful (request_lawful h (opStoreCommit_keeps _ _ _ _ _ _) _ _ _) hi
  | storeRevoke r area => exact next_lawful (request_lawful h (opStoreRevoke_keeps _ _ _) _ _ _) hi
  | storeRead r area offset length => exact next_lawful (request_lawful h (opStoreRead_keeps _ _ _) _ _ _) hi
  | storeBlank r area => exact next_lawful (request_lawful h (opStoreBlank_keeps _) _ _ _) hi
  | storeDigest r area first last => exact next_lawful (request_lawful h (opStoreDigest_keeps _ _ _) _ _ _) hi
  | storeInfo r => exact next_lawful (request_lawful h opStoreInfo_keeps _ _ _) hi
  | load r area channel startFlag => exact next_lawful (request_lawful h (opLoad_keeps _ _ _ _) _ _ _) hi
  | unknownKind seq pins kind payload =>
    exact next_lawful (ite_lawful h (acceptUnknown_lawful (frameEnds_lawful h pins) kind seq payload)) hi
  | lengthFault length => exact next_lawful (ite_lawful h (receiverFault_lawful h _)) hi
  | checkFault kind seq payload check => exact next_lawful (ite_lawful h (receiverFault_lawful h _)) hi
  | interbyteTimeout => exact next_lawful (ite_lawful h (receiverFault_lawful h _)) hi
  | rxBreak => exact next_lawful (ite_lawful h (receiverFault_lawful h _)) hi
  | transmissionEnd => exact next_lawful (transmissionEnd_lawful h) hi
  | autostartStep => exact autostartStep_command_lawful h hi
  | fullReset straps stopped => exact next_lawful (ite_lawful (fullReset_lawful s straps stopped) h) hi
  | coldReset straps span => exact next_lawful (restart_lawful _ _ _ _ _) hi
  | scanComplete => exact scanComplete_lawful h hi
  | eraseComplete => exact eraseComplete_lawful h hi
  | writeComplete => exact writeComplete_lawful h hi
  | validation => exact validation_lawful h hi
  | commitComplete => exact commitComplete_lawful h hi
  | revokeComplete => exact revokeComplete_lawful h hi
  | loadReadComplete stopped => exact loadReadComplete_lawful h stopped hi
  | dwellExpiry c => exact next_lawful (doExpiry_lawful h) hi
  | pairTimerExpiry c => exact next_lawful (doPairTimer_lawful h) hi
  | gateArrival c => exact next_lawful (doArrival_lawful h) hi
  | triggerEdge c => exact next_lawful (doEdge_lawful h) hi
  | timeArrival c => exact next_lawful (doTime_lawful h) hi
  | syncEdge => exact next_lawful (doSyncEdge_lawful h) hi
  | wrap => exact next_lawful (doWrap_lawful h) hi
  | gateLineChange => exact next_lawful (doGateLine_lawful h) hi
  | samplePeriod lines => exact next_lawful (advance_lawful (endPeriod_lawful h) lines) hi
  | byteReceived stopHigh byte pins => exact next_lawful (ite_lawful h (takeByte_lawful h byte pins)) hi
  | retentionLoss area changes => exact retentionLoss_lawful h area changes hi

end Sys2Proof.Machine

open Sys2Proof.Machine

/-- Settles O5: the laws do not read the commands that wait, and every command keeps them. -/
theorem lawfulKept : Obligations.LawfulKept := by
  intro s t h hs
  unfold step at hs
  split at hs
  · exact next_lawful h hs
  · rename_i c rest _
    exact exec_lawful (s := { s with pending := rest }) h hs

end

section
/-! What a load's completion does, check by check, as its obligation states it. -/

open Sys2Proof

namespace Sys2Proof.Machine

variable {s t u w : State} {c : Chan} {k : LoadCtx} {p : Program} {r : CommitRec} {hop : HopEntry}
  {rest : List HopEntry}

/-! The staged image. -/

theorem stage_chan (s : State) (k : LoadCtx) (r : CommitRec) (d : Chan) : (s.stage k r).chan d = s.chan d :=
  loader_chan s _ d

theorem stage_loading (h : s.Loading k) (r : CommitRec) : (s.stage k r).Loading k :=
  h.congr rfl (stage_chan s k r) rfl rfl rfl rfl rfl

theorem stage_conflicts (s : State) (k : LoadCtx) (r : CommitRec) : (s.stage k r).conflicts c = s.conflicts c := by
  funext q
  unfold State.conflicts
  rw [stage_chan]
  rfl

/-- A load that ends ends alike with and without the bytes it has staged. -/
theorem LoadEnded.of_stage {st : Status} {detail : Byte} (h : LoadEnded (s.stage k r) t k st detail) :
    LoadEnded s t k st detail where
  own := by rw [h.own, stage_chan]
  other := by rw [h.other, stage_chan]
  slot := h.slot
  loader := h.loader
  store := h.store
  epoch := h.epoch
  link := h.link
  gateLine := h.gateLine
  reports hst := h.reports (by rw [stage_chan]; exact hst)

/-! The tests of R175 and R176. -/

/-- A slot in conflict: the other channel holds pins on it, and it has another word or offset (R175). -/
theorem conflicts_of_pins {i : Fin 48} {tone : Tone} (h : s.PinsSound) (hp : 0 < (s.chan (chanOther c)).pinsOn i)
    (hd : ∀ held, (s.slot i).tone = some held → held.word ≠ tone.word ∨ held.offset ≠ tone.offset) :
    s.conflicts c (i, tone) = true := by
  obtain ⟨h1, h2⟩ := h i
  rw [pinsOn_sum s c] at h1
  obtain ⟨held, hh⟩ := Option.isSome_iff_exists.mp (h2 (by omega))
  simp only [State.conflicts, hh, hp, decide_true, Bool.true_and]
  rcases hd held hh with h0 | h0 <;> simp [h0]

/-- Without a conflict the tone that the apply writes is the program's, whether the slot is pinned or not (R12). -/
theorem programmed_of_no_conflict {q : Fin 48 × Tone} (h : s.conflicts c q = false) {n : Nat}
    (hn : n = (s.chan (chanOther c)).pinsOn q.1) :
    Slot.programmed { s.slot q.1 with pins := n } q.2 = q.2 := by
  unfold State.conflicts at h
  unfold Slot.programmed
  cases hh : (s.slot q.1).tone with
  | none => rfl
  | some old =>
    simp only [hh] at h
    by_cases h0 : n = 0
    · simp [h0]
    · have hpos : 0 < (s.chan (chanOther c)).pinsOn q.1 := by omega
      simp only [hpos, decide_true, Bool.true_and, Bool.or_eq_false_iff, bne_eq_false_iff_eq] at h
      simp [h0, h.1, h.2]

theorem find_conflict {before after : List (Fin 48 × Tone)} {q : Fin 48 × Tone}
    (hs : p.slots = before ++ q :: after) (hb : ∀ q ∈ before, s.conflicts c q = false)
    (hq : s.conflicts c q = true) : p.slots.find? (s.conflicts c) = some q := by
  rw [hs, List.find?_append, List.find?_eq_none.mpr (fun x hx => by simp [hb x hx])]
  simp [hq]

theorem dwellShort_iff (ramp : Nat) (e : HopEntry) :
    dwellShort ramp e = true ↔ e.blank = true ∧ e.dwell.toNat ≤ ramp := by simp [dwellShort]

theorem dwellShort_false {ramp : Nat} {e : HopEntry} (h : e.blank = true → ramp < e.dwell.toNat) :
    dwellShort ramp e = false := by
  rw [Bool.eq_false_iff, Ne, dwellShort_iff]
  exact fun ⟨h1, h2⟩ => absurd (h h1) (by omega)

theorem findIdx_short {ramp : Nat} {before after : List HopEntry} (hs : p.hops = before ++ hop :: after)
    (hb : ∀ e ∈ before, e.blank = true → ramp < e.dwell.toNat) (h1 : hop.blank = true)
    (h2 : hop.dwell.toNat ≤ ramp) : p.hops.findIdx? (dwellShort ramp) = some before.length := by
  rw [hs, List.findIdx?_append, List.findIdx?_eq_none_iff.mpr (fun e he => dwellShort_false (hb e he))]
  rw [List.findIdx?_cons, (dwellShort_iff ramp hop).mpr ⟨h1, h2⟩]
  simp

/-! The apply. -/

/-- The program stands on its channel and the load has ended: everything the apply has done before the channel
starts or rests (R178). -/
structure Applied (u x : State) (k : LoadCtx) (p : Program) : Prop where
  own : x.chan k.chan = { u.chan k.chan with queue := p.hops }
  other : x.chan (chanOther k.chan) = u.chan (chanOther k.chan)
  pins : ∀ i, (x.slot i).pins =
    (u.chan (chanOther k.chan)).pinsOn i + p.hops.countP fun e => e.slot == i
  reserved : ∀ i, (x.slot i).reserved = false
  named : ∀ i tone, (i, tone) ∈ p.slots → (x.slot i).tone = some tone
  unnamed : ∀ i, (∀ q ∈ p.slots, q.1 ≠ i) → (x.slot i).tone = (u.slot i).tone
  loader : x.loader = { u.loader with ctx := none, staging := [] }
  store : x.store = u.store
  link : x.link = u.link
  epoch : x.epoch = u.epoch
  reports : x.reports = u.reports

/-- A LOADING channel has no hop. -/
theorem State.Loading.hopless (h : u.Loading k) : (u.chan k.chan).cur = none := by
  have := (h.inside.chan k.chan).hop
  rw [h.st] at this
  simpa [ChanState.holdsHop] using this

/-- The pins of a LOADING channel's slots, its queue's apart, are the other channel's. -/
theorem State.Loading.pins (h : u.Loading k) (i : Fin 48) :
    (u.slot i).pins - entryPins (u.chan k.chan).queue i = (u.chan (chanOther k.chan)).pinsOn i := by
  obtain ⟨h1, -⟩ := h.inside.pins i
  rw [pinsOn_sum u k.chan, Channel.pinsOn_eq (u.chan k.chan), h.hopless] at h1
  simp at h1
  omega

theorem applied_of_loading (h : u.Loading k) (r : CommitRec) (hf : p.Fits)
    (hc : ∀ q ∈ p.slots, u.conflicts k.chan q = false) :
    Applied u ((u.stage k r).installProgram k.chan p).endLoad k p := by
  have hi := installProgram_installed (u.stage k r) k.chan p
  obtain ⟨o1, o2, o3, o4, o5, o6⟩ := hi.outside
  obtain ⟨e1, e2, e3, e4, e5, -⟩ := endLoad_kept ((u.stage k r).installProgram k.chan p)
  have hpins (i : Fin 48) : ((u.stage k r).slot i).pins - entryPins ((u.stage k r).chan k.chan).queue i =
      (u.chan (chanOther k.chan)).pinsOn i := by rw [stage_chan]; exact h.pins i
  refine ⟨?_, ?_, fun i => ?_, fun i => ?_, fun i tone hq => ?_, fun i hn => ?_, ?_, ?_, ?_, ?_, ?_⟩
  · rw [endLoad_chan, hi.own, stage_chan]
  · rw [endLoad_chan, hi.other, stage_chan]
  · rw [endLoad_slot, hi.pins, hpins]; rfl
  · rw [endLoad_slot]
  · rw [endLoad_slot, hi.named hf i tone hq, hpins]
    exact congrArg some (programmed_of_no_conflict (hc _ hq) rfl)
  · rw [endLoad_slot, hi.unnamed i hn]; rfl
  · rw [e1, o2]; rfl
  · rw [e2, o1]; rfl
  · rw [e5, o3]; rfl
  · rw [e4, o5]; rfl
  · rw [e3, o6]; rfl

/-! The start of the program (R178). -/

/-- The count and the arm state after an epoch event that is due (R14, R18). -/
theorem settleEpoch_epoch (s : State) : s.settleEpoch.epoch = if s.epoch.eventDue then
    { s.epoch with count := 0#48, syncDue := false, wrapDue := false, wrapHeld := false,
                   arm := if s.epoch.arm = .once then .disarmed else s.epoch.arm } else s.epoch := by
  unfold State.settleEpoch
  split
  · rename_i h
    have ha : s.epoch.arm ≠ .disarmed := fun h0 => by simp [Epoch.eventDue, h0] at h
    rw [syncRise_armed ha, (epochEvent_taken _ _).1]
  · rfl

/-- A channel after an epoch event that is due: a COHERENT switch of the period takes the count 0 (R48). -/
theorem settleEpoch_chan (s : State) (c : Chan) : s.settleEpoch.chan c = if s.epoch.eventDue then
    (match (s.chan c).coherentNow with
      | none => s.chan c
      | some tone => { s.chan c with acc := BitVec.ofNat 32 (tone.offset.toNat * 65536) }) else s.chan c := by
  unfold State.settleEpoch
  split
  · rename_i h
    have ha : s.epoch.arm ≠ .disarmed := fun h0 => by simp [Epoch.eventDue, h0] at h
    rw [syncRise_armed ha, (epochEvent_taken _ _).2.1 c]
    cases c <;> rfl
  · rfl

theorem settleEpoch_slot (s : State) (i : Fin 48) : s.settleEpoch.slot i = s.slot i := by
  simp [State.slot, (settleEpoch_kept s).1]

/-- A channel without a hop that waits on its head goes on waiting. -/
theorem waited_none (h : Waited s t c) (hc : (s.chan c).cur = none) : t = s := by
  unfold Waited at h
  simpa [hc] using h

/-- A head met under a CLOSED gate on a channel without a hop changes no pin (R5, R46). -/
theorem met_pins (h : Met s t c hop rest) (hg : (s.chan c).gate.st = .closed) (hc : (s.chan c).cur = none)
    (i : Fin 48) : t.slot i = s.slot i := by
  obtain ⟨-, -, -, -, -, -, -, -, -, -, -, -, -, -, -, -, hs, -⟩ := h.1 (.inr hg)
  rw [hs, (settleEpoch_kept s).2.2.2.2 c, settleEpoch_slot]
  simp [hc]

/-- The evaluation of a head on a channel without a hop, whose partner is not ready, changes no pin. -/
theorem evaluated_pins (h : Evaluated s t c hop rest false) (hg : (s.chan c).gate.st = .closed)
    (hc : (s.chan c).cur = none) (hr : (s.chan c).ready = false) (ho : (s.chan (chanOther c)).ready = false)
    (i : Fin 48) : t.slot i = s.slot i := by
  obtain ⟨hafter, hline, htime, hpaired⟩ := h
  have hk := (settleEpoch_kept s).2.2.2.2 c
  have hgv : (s.settleEpoch.chan c).gate.st = .closed := by rw [hk]; exact hg
  have hcv : (s.settleEpoch.chan c).cur = none := by rw [hk]; exact hc
  cases ht : hop.trigger with
  | after => exact met_pins (hafter ht) hg hc i
  | line => rw [waited_none (hline ht) hc]
  | time at_ =>
    obtain ⟨h1, h2, h3⟩ := htime at_ ht
    have hcases : s.settleEpoch.epoch.count < at_ ∨ s.settleEpoch.epoch.count = at_ ∨
        at_ < s.settleEpoch.epoch.count := by bv_omega
    rcases hcases with h0 | h0 | h0
    · rw [waited_none (h1 h0) hcv, settleEpoch_slot]
    · rw [met_pins (h2 h0) hgv hcv, settleEpoch_slot]
    · rw [met_pins (h3 h0) (by simpa using hgv) (by simpa using hcv), State.report_slot, settleEpoch_slot]
  | paired =>
    obtain ⟨w, hw, -, h2, -⟩ := (hpaired ht).2 (.inr ⟨hg, rfl⟩)
    cases waited_none hw hc
    rw [h2 hr ho, State.setChan_slot]

/-- The start of a LOADING channel with a head: WAITING with its report, and the head's evaluation (R66, R178). -/
theorem startChannel_evaluated {x : State} {l : Option Chan} (he : x.Inside l) (hst : (x.chan c).st = .loading)
    (hq : (x.chan c).queue = hop :: rest) : x.startChannel c = (x.enter c .waiting).evaluate c false ∧
      Evaluated (x.enter c .waiting) (x.startChannel c) c hop rest false := by
  have hx := he.chan c
  have hstop := hx.unstopped (by simp [hst])
  have hsame : x.setChan c { x.chan c with stopAtEnd := false } = x := by
    rw [← hstop]; exact State.setChan_self x c
  have hch := enter_chan x c .waiting
  have heq : x.startChannel c = (x.enter c .waiting).evaluate c false := by
    unfold State.startChannel
    simp only [hsame]
    rw [if_neg]
    rw [hch]
    simp [hq]
  refine ⟨heq, ?_⟩
  rw [heq]
  exact evaluate_head (by rw [hch]; exact hx.unoffered (by simp [hst])) (by rw [hch]; exact hq)

/-- An epoch event that is due makes the same of two channels alike in their accumulator and its COHERENT switch. -/
theorem settleEpoch_acc_congr (he : t.epoch = s.epoch) (hc : (t.chan c).coherentNow = (s.chan c).coherentNow)
    (ha : (t.chan c).acc = (s.chan c).acc) : (t.settleEpoch.chan c).acc = (s.settleEpoch.chan c).acc := by
  rw [settleEpoch_chan, settleEpoch_chan, he]
  split
  · rw [hc]
    cases (s.chan c).coherentNow with
    | none => exact ha
    | some tone => rfl
  · exact ha

theorem settleEpoch_chan_congr (he : t.epoch = s.epoch) (hc : t.chan c = s.chan c) :
    t.settleEpoch.chan c = s.settleEpoch.chan c := by
  rw [settleEpoch_chan, settleEpoch_chan, he, hc]

theorem settleEpoch_epoch_congr (he : t.epoch = s.epoch) : t.settleEpoch.epoch = s.settleEpoch.epoch := by
  rw [settleEpoch_epoch, settleEpoch_epoch, he]

/-- The moves of the hop engine that follow leave the program's slots and everything around the engine. -/
theorem Applied.moved {x y : State} (h : Applied u x k p) (m : EngineMoves x y) :
    y.store = u.store ∧ y.loader = { u.loader with ctx := none, staging := [] } ∧ y.link = u.link ∧
    (∀ i, (y.slot i).reserved = false) ∧ (∀ i tone, (i, tone) ∈ p.slots → (y.slot i).tone = some tone) ∧
    (∀ i, (∀ q ∈ p.slots, q.1 ≠ i) → (y.slot i).tone = (u.slot i).tone) :=
  ⟨m.store.trans h.store, m.loader.trans h.loader, m.link.trans h.link, fun i => (m.slot i).2.trans (h.reserved i),
    fun i tone hi => (m.slot i).1.trans (h.named i tone hi), fun i hi => (m.slot i).1.trans (h.unnamed i hi)⟩

/-- WAITING on the program's first hop, where the start flag is set: the state that the head is evaluated in (R178). -/
structure Waiting (u w : State) (k : LoadCtx) (p : Program) : Prop where
  own : w.chan k.chan = { u.chan k.chan with st := .waiting, queue := p.hops }
  other : w.chan (chanOther k.chan) = u.chan (chanOther k.chan)
  epoch : w.epoch = u.epoch
  reports : w.reports = u.reports.make (.channelState k.chan .waiting)

theorem Applied.waiting {x : State} (h : Applied u x k p) (hl : u.Loading k) :
    Waiting u (x.enter k.chan .waiting) k p where
  own := by rw [enter_chan, h.own]
  other := by rw [enter_other, h.other]
  epoch := by rw [enter_epoch, h.epoch]
  reports := by
    have hst : (x.chan k.chan).st = .loading := by rw [h.own]; exact hl.st
    rw [enter_reports, hst, h.reports]
    rfl

/-- An AFTER head of the program plays (R51, R178). -/
theorem Applied.plays {x v : State} (h : Applied u x k p) (hl : u.Loading k) {tone : Tone}
    (hv : Evaluated (x.enter k.chan .waiting) v k.chan hop rest false) (ht : hop.trigger = .after)
    (hn : (hop.slot, tone) ∈ p.slots) :
    (v.chan k.chan).st = .dwell ∧ (v.chan k.chan).cur = some hop ∧ (v.chan k.chan).queue = rest ∧
      (v.chan k.chan).dwell = hop.dwell.toNat ∧ (v.chan k.chan).cfg = (u.chan k.chan).cfg ∧
      (v.chan k.chan).acc = (match hop.mode with
        | .continuous => (u.settleEpoch.chan k.chan).acc
        | .restart => BitVec.ofNat 32 (tone.offset.toNat * 65536)
        | .coherent => BitVec.ofNat 32 (tone.offset.toNat * 65536 +
            tone.word.toNat * u.epoch.periodCount.toNat)) ∧
      (v.chan k.chan).gate.hold.noHop = false ∧
      v.chan (chanOther k.chan) = u.settleEpoch.chan (chanOther k.chan) ∧
      v.epoch = u.settleEpoch.epoch := by
  have hw := h.waiting hl
  have hx := hl.inside.chan k.chan
  have hcur := hl.hopless
  have hs := (hv.1 ht).1 (.inr (by rw [hw.own]; exact hx.shut hcur))
  have hk := (settleEpoch_kept (x.enter k.chan .waiting)).2.2.2.2 k.chan
  have htone : (x.enter k.chan .waiting).settleEpoch.toneOf hop.slot = tone := by
    rw [State.toneOf, settleEpoch_slot, enter_slot, h.named _ _ hn]
    rfl
  obtain ⟨h1, h2, h3, h4, -, -, -, -, h5, -, -, -, h6, h7, -, h8, -, h9, -⟩ := hs
  rw [htone, settleEpoch_count, settleEpoch_acc_congr hw.epoch (by rw [hw.own]) (by rw [hw.own]), hw.epoch] at h6
  refine ⟨h1, h2, ?_, h4, ?_, h6, by rw [h7], ?_, ?_⟩
  · rw [h3, hk, hw.own]; simp [hcur]
  · rw [h5, hk, hw.own]
  · rw [h8]; exact settleEpoch_chan_congr hw.epoch hw.other
  · rw [h9]; exact settleEpoch_epoch_congr hw.epoch

/-! The completion, by its checks in order (R173 to R178). -/

/-- The image that a load has staged (R169, R173). -/
def State.stagedImage (s : State) (k : LoadCtx) (r : CommitRec) : Nat → Byte :=
  stagedByte (s.store.areaSlice k.area 0 (min r.imageLength.toNat 1808))

theorem completeLoad_none (h : (s.store.dir k.area).commit = none) : s.completeLoad k = s.corruptLoad k := by
  simp only [State.completeLoad, h]

theorem completeLoad_mismatch (h : (s.store.dir k.area).commit = some r)
    (hc : imageCrc (s.stagedImage k r) r.imageLength.toNat ≠ r.imageCrc) :
    s.completeLoad k = (s.stage k r).corruptLoad k := by
  simp only [State.completeLoad, h]
  exact if_pos hc

theorem completeLoad_unread (h : (s.store.dir k.area).commit = some r)
    (hc : imageCrc (s.stagedImage k r) r.imageLength.toNat = r.imageCrc)
    (hp : programIn (s.stagedImage k r) = none) : s.completeLoad k = (s.stage k r).corruptLoad k := by
  have hp' : programIn (stagedByte (s.stage k r).loader.staging) = none := hp
  simp only [State.completeLoad, h, hp']
  exact if_neg (not_not.mpr hc)

theorem completeLoad_program (h : (s.store.dir k.area).commit = some r)
    (hc : imageCrc (s.stagedImage k r) r.imageLength.toNat = r.imageCrc)
    (hp : programIn (s.stagedImage k r) = some p) : s.completeLoad k = (s.stage k r).checkLoad k p := by
  have hp' : programIn (stagedByte (s.stage k r).loader.staging) = some p := hp
  simp only [State.completeLoad, h, hp']
  exact if_neg (not_not.mpr hc)

theorem checkLoad_conflict {q : Fin 48 × Tone} (h : p.slots.find? (s.conflicts k.chan) = some q) :
    s.checkLoad k p = s.failLoad k .slotConflict (b8 q.1.val) := by
  simp only [State.checkLoad, h]

theorem checkLoad_short {j : Nat} (h : ∀ q ∈ p.slots, s.conflicts k.chan q = false)
    (hj : p.hops.findIdx? (dwellShort (s.chan k.chan).cfg.ramp) = some j) :
    s.checkLoad k p = s.failLoad k .dwellShort (b8 j) := by
  have hn : p.slots.find? (s.conflicts k.chan) = none := List.find?_eq_none.mpr fun q hq => by simp [h q hq]
  simp only [State.checkLoad, hn, hj]

theorem checkLoad_apply (h : ∀ q ∈ p.slots, s.conflicts k.chan q = false)
    (hj : ∀ e ∈ p.hops, e.blank = true → (s.chan k.chan).cfg.ramp < e.dwell.toNat) :
    s.checkLoad k p = s.applyLoad k p := by
  have hn : p.slots.find? (s.conflicts k.chan) = none := List.find?_eq_none.mpr fun q hq => by simp [h q hq]
  have hd : p.hops.findIdx? (dwellShort (s.chan k.chan).cfg.ramp) = none :=
    List.findIdx?_eq_none_iff.mpr fun e he => dwellShort_false (hj e he)
  simp only [State.checkLoad, hn, hd]

theorem staged_corrupt_ended (s : State) (k : LoadCtx) (r : CommitRec) :
    LoadEnded (s.setDir k.area (s.store.dir k.area).damaged) ((s.stage k r).corruptLoad k) k .corrupt 0xFF#8 :=
  LoadEnded.of_stage (r := r)
    (failLoad_ended ((s.setDir k.area (s.store.dir k.area).damaged).stage k r) k .corrupt 0xFF#8)

theorem execLoad_none (stopped : Bool) (h : s.loader.ctx = none) :
    exec (.loadReadComplete stopped) s = .next s := by
  show Host.Outcome.next _ = _
  rw [h]

theorem execLoad_some (stopped : Bool) (h : s.loader.ctx = some k) :
    exec (.loadReadComplete stopped) s = .next ((s.noteClock stopped).completeLoad k).finish := by
  show Host.Outcome.next _ = _
  rw [h]

end Sys2Proof.Machine

open Sys2Proof.Machine

/-- Settles O42: the checks of R173 to R176 in their order, and the apply. -/
theorem loadCompletes : Obligations.LoadCompletes := by
  intro s stopped
  refine ⟨execLoad_none stopped, ?_⟩
  intro u k hk hu c failed corrupt
  have hl : u.Loading k := loading_of_lawful hu ((noteClock_ctx s stopped).trans hk)
  have hx : exec (.loadReadComplete stopped) s = .next (u.completeLoad k).finish := execLoad_some stopped hk
  have fails {t : State} {st : Status} {detail : Byte} (ht : u.completeLoad k = t)
      (he : LoadEnded u t k st detail) : failed t st detail :=
    ⟨ht ▸ hx, he.own, he.other, he.slot, he.loader, he.epoch, he.link, he.reports hl.st⟩
  have corrupts {t : State} (ht : u.completeLoad k = t)
      (he : LoadEnded (u.setDir k.area (u.store.dir k.area).damaged) t k .corrupt 0xFF#8) : corrupt t :=
    ⟨⟨ht ▸ hx, by simpa using he.own, by simpa using he.other, by simpa using he.slot, he.loader, he.epoch, he.link,
      he.reports (by simpa using hl.st)⟩, he.store⟩
  refine ⟨fun hn => ?_, ?_⟩
  · exact ⟨_, corrupts (completeLoad_none hn) (failLoad_ended _ k _ _)⟩
  intro r hr img
  refine ⟨fun hc => ⟨_, corrupts (completeLoad_mismatch hr hc) (staged_corrupt_ended u k r)⟩,
    fun hc hp => ⟨_, corrupts (completeLoad_unread hr hc hp) (staged_corrupt_ended u k r)⟩, ?_⟩
  intro p hc hp
  have hcheck := completeLoad_program hr hc hp
  have hf := programIn_fits hp
  have hcf : (u.stage k r).conflicts c = u.conflicts c := stage_conflicts u k r
  have hcfg : ((u.stage k r).chan c).cfg = (u.chan c).cfg := by rw [stage_chan]
  refine ⟨fun before i tone after hs hb hp hd => ?_, fun before hop after hnc hs hbl hdw hb => ?_,
    fun hnc hlong => ?_⟩
  · have hq := find_conflict hs hb (conflicts_of_pins hl.inside.pins hp hd)
    rw [← hcf] at hq
    exact ⟨_, fails (hcheck.trans (checkLoad_conflict hq)) (failLoad_ended _ k _ _).of_stage,
      (failLoad_ended _ k _ _).store⟩
  · have hj := findIdx_short hs hb hbl hdw
    rw [← hcfg] at hj
    rw [← hcf] at hnc
    exact ⟨_, fails (hcheck.trans (checkLoad_short hnc hj)) (failLoad_ended _ k _ _).of_stage,
      (failLoad_ended _ k _ _).store⟩
  · have happ := applied_of_loading hl r hf hnc
    have hdone := hcheck.trans (checkLoad_apply (hcf ▸ hnc) (hcfg ▸ hlong))
    rw [hdone] at hx
    have hin := endLoad_inside (installProgram_inside (c := c) (stage_loading hl r).inside
      (by rw [stage_chan]; exact hl.st) hf)
    have hst : (((u.stage k r).installProgram c p).endLoad.chan c).st = .loading := by
      rw [happ.own]; exact hl.st
    cases hs : k.start with
    | false =>
      rw [applyLoad_rest hs, State.failLoad] at hx
      generalize ((u.stage k r).installProgram c p).endLoad = x at happ hx hin hst
      obtain ⟨h1, h2, h3, h4, h5, h6⟩ := happ.moved ((EngineMoves.refl x).enter c .idle)
      refine ⟨_, hx, h1, h2, h3, h4, h5, h6, fun _ i => ?_, fun _ => ⟨?_, ?_, ?_, ?_⟩, fun _ _ _ h0 => by simp at h0,
        fun _ _ h0 => by simp at h0⟩
      · rw [State.report_slot, enter_slot, happ.pins]
      · rw [State.report_chan, enter_chan, happ.own]
      · rw [State.report_chan, enter_other, happ.other]
      · rw [State.report_epoch, enter_epoch, happ.epoch]
      · rw [State.report_reports, enter_reports, hst, happ.reports]; rfl
    | true =>
      rw [applyLoad_start hs] at hx
      generalize ((u.stage k r).installProgram c p).endLoad = x at happ hx hin hst
      obtain ⟨h1, h2, h3, h4, h5, h6⟩ := happ.moved ((EngineMoves.refl x).startChannel c)
      have hw := happ.waiting hl
      have hx0 := hl.inside.chan c
      have hev {hop : HopEntry} {rest : List HopEntry} (hq : p.hops = hop :: rest) :
          Evaluated (x.enter c .waiting) (x.startChannel c) c hop rest false :=
        (startChannel_evaluated hin hst (by rw [happ.own]; exact hq)).2
      refine ⟨_, hx, h1, h2, h3, h4, h5, h6, fun ho i => ?_, fun h0 => by simp at h0,
        fun hop rest tone _ hq ht hn => ?_, fun hop rest _ hq =>
          ⟨_, _, hw.own, hw.other, hw.epoch, hw.reports, fun i => ⟨?_, ?_⟩, fun i tone hi => ?_, hev hq, rfl⟩⟩
      · obtain ⟨hop, rest, hq⟩ := List.exists_cons_of_ne_nil hf.nonempty
        have hr : (u.chan c).ready = false := hx0.unready (by rw [show (u.chan c).st = _ from hl.st]; simp)
        rw [State.report_slot, evaluated_pins (hev hq) (by rw [hw.own]; exact hx0.shut hl.hopless)
          (by rw [hw.own]; exact hl.hopless) (by rw [hw.own]; exact hr)
          (by rw [hw.other]; simpa using ho) i, enter_slot, happ.pins]
      · obtain ⟨g1, g2, g3, g4, g5, g6, g7, g8, g9⟩ := happ.plays hl (hev hq) ht hn
        rw [State.report_chan, State.report_chan]
        exact ⟨g1, g2, g3, g4, g5, g6, g7, g8, g9⟩
      · rw [enter_slot, happ.reserved]
      · rw [enter_slot, happ.pins]
      · rw [enter_slot, happ.named i tone hi]

end

section
/-! HOP_APPEND: the encoding of its entries read back, and the entries that join the queue. -/

open Sys2Proof

namespace Sys2Proof.Machine

variable {s t : State} {c : Chan} {q : HopEntry} {es : List HopEntry}

/-! Big-endian fields read back (spec 00). -/

theorem u16_of_be16 (v : BitVec 16) : (v.extractLsb' 8 8 ++ v.extractLsb' 0 8 : BitVec 16) = v :=
  (BitVec.extractLsb'_append_extractLsb'_eq_extractLsb' (show 8 = 0 + 8 from rfl)).trans BitVec.extractLsb'_eq_self

theorem u24_of_be24 (v : BitVec 24) :
    (v.extractLsb' 16 8 ++ (v.extractLsb' 8 8 ++ v.extractLsb' 0 8 : BitVec 16) : BitVec 24) = v := by
  have h : (v.extractLsb' 8 8 ++ v.extractLsb' 0 8 : BitVec 16) = v.extractLsb' 0 16 :=
    BitVec.extractLsb'_append_extractLsb'_eq_extractLsb' (show 8 = 0 + 8 from rfl)
  rw [h]
  exact (BitVec.extractLsb'_append_extractLsb'_eq_extractLsb' (show 16 = 0 + 16 from rfl)).trans
    BitVec.extractLsb'_eq_self

theorem u32_of_be32 (v : BitVec 32) : (v.extractLsb' 16 16 ++ v.extractLsb' 0 16 : BitVec 32) = v :=
  (BitVec.extractLsb'_append_extractLsb'_eq_extractLsb' (show 16 = 0 + 16 from rfl)).trans BitVec.extractLsb'_eq_self

theorem u48_of_be48 (v : BitVec 48) : (v.extractLsb' 32 16 ++ v.extractLsb' 0 32 : BitVec 48) = v :=
  (BitVec.extractLsb'_append_extractLsb'_eq_extractLsb' (show 32 = 0 + 32 from rfl)).trans BitVec.extractLsb'_eq_self

/-- The time field of an entry, in its bytes from 7 on. -/
theorem u48At_be48 (head tail : List Byte) (v : BitVec 48) :
    u48At (byteAt (head ++ be48 v ++ tail)) head.length = v := by
  have hb (i : Nat) (hi : i < 6) : byteAt (head ++ be48 v ++ tail) (head.length + i) = (be48 v).getD i 0#8 := by
    unfold byteAt
    rw [List.append_assoc, List.getD_append_right _ _ _ _ (by omega), Nat.add_sub_cancel_left,
      List.getD_append _ _ _ _ (by simpa [be48, be32, be16] using hi)]
  have h0 := hb 0 (by omega)
  have h1 := hb 1 (by omega)
  have h2 := hb 2 (by omega)
  have h3 := hb 3 (by omega)
  have h4 := hb 4 (by omega)
  have h5 := hb 5 (by omega)
  calc u48At (byteAt (head ++ be48 v ++ tail)) head.length
      = (v.extractLsb' 32 16).extractLsb' 8 8 ++ (v.extractLsb' 32 16).extractLsb' 0 8 ++
        (((v.extractLsb' 0 32).extractLsb' 16 16).extractLsb' 8 8 ++
            ((v.extractLsb' 0 32).extractLsb' 16 16).extractLsb' 0 8 ++
          (((v.extractLsb' 0 32).extractLsb' 0 16).extractLsb' 8 8 ++
            ((v.extractLsb' 0 32).extractLsb' 0 16).extractLsb' 0 8)) := by
        simp only [u48At, u32At, u16At, Nat.add_assoc, Nat.reduceAdd, h1, h2, h3, h4, h5]
        rw [show byteAt (head ++ be48 v ++ tail) head.length = _ from h0]
        rfl
    _ = v := by
        rw [u16_of_be16, u16_of_be16, u16_of_be16, u32_of_be32, u48_of_be48]

/-! The flags byte (Table 7-10). -/

/-- The bits of a flags byte are its fields. -/
theorem flags_fields : ∀ (m : Fin 3) (g : Fin 4) (blank report time tag : Bool),
    let f : Byte := BitVec.ofNat 8 (m.val + 4 * g.val + 16 * blank.toNat + 32 * report.toNat + 64 * time.toNat +
      128 * tag.toNat)
    (f.extractLsb' 0 2).toNat = m.val ∧ (f.extractLsb' 2 2).toNat = g.val ∧ f.getLsbD 4 = blank ∧
      f.getLsbD 5 = report ∧ f.getLsbD 6 = time ∧ f.getLsbD 7 = tag := by decide

theorem modeCode_lt (m : Mode) : modeCode m < 3 := by cases m <;> decide

theorem triggerCode_lt (g : Trigger) : triggerCode g < 4 := by cases g <;> simp [triggerCode]

theorem entryFlags_fields (e : HopEntry) :
    ((entryFlags e).extractLsb' 0 2).toNat = modeCode e.mode ∧
    ((entryFlags e).extractLsb' 2 2).toNat = triggerCode e.trigger ∧
    (entryFlags e).getLsbD 4 = e.blank ∧ (entryFlags e).getLsbD 5 = e.report ∧
    (entryFlags e).getLsbD 6 = (triggerTime e.trigger).isSome ∧ (entryFlags e).getLsbD 7 = e.tag.isSome :=
  flags_fields ⟨modeCode e.mode, modeCode_lt _⟩ ⟨triggerCode e.trigger, triggerCode_lt _⟩ e.blank e.report
    (triggerTime e.trigger).isSome e.tag.isSome

theorem modeOf_entryFlags (e : HopEntry) : modeOf (entryFlags e) = some e.mode := by
  unfold modeOf
  rw [(entryFlags_fields e).1]
  cases e.mode <;> rfl

theorem triggerOf_entryFlags (e : HopEntry) {time : BitVec 48} (h : ∀ t, triggerTime e.trigger = some t → time = t) :
    triggerOf (entryFlags e) time = some e.trigger := by
  obtain ⟨-, h1, -, -, h2, -⟩ := entryFlags_fields e
  unfold triggerOf
  rw [h1, h2]
  cases ht : e.trigger with
  | time t => rw [h t (by rw [ht]; rfl)]; rfl
  | _ => rfl

/-! An entry written and read back (R28, R134). -/

theorem encodeEntry_length (e : HopEntry) : (encodeEntry e).length = entryLength (entryFlags e) := by
  obtain ⟨-, -, -, -, h1, h2⟩ := entryFlags_fields e
  unfold entryLength encodeEntry
  rw [h1, h2]
  cases triggerTime e.trigger <;> cases e.tag <;> rfl

theorem wireEntry_encode (e : HopEntry) : let r := wireEntry (encodeEntry e)
    r.slot = b8 e.slot.val ∧ r.flags = entryFlags e ∧ r.dwell = e.dwell ∧ r.amplitude = e.amplitude ∧
    (∀ t, triggerTime e.trigger = some t → r.time = t) ∧ ∀ g, e.tag = some g → r.tag = g := by
  obtain ⟨-, -, -, -, h1, h2⟩ := entryFlags_fields e
  refine ⟨rfl, rfl, u24_of_be24 e.dwell, u16_of_be16 e.amplitude, fun t ht => ?_, fun g hg => ?_⟩
  · show u48At (byteAt (encodeEntry e)) 7 = t
    unfold encodeEntry
    rw [ht]
    exact u48At_be48 ([b8 e.slot.val, entryFlags e] ++ be24 e.dwell ++ be16 e.amplitude) _ t
  · show u16At (byteAt (encodeEntry e)) (if (entryFlags e).getLsbD 6 then 13 else 7) = g
    rw [h1]
    unfold encodeEntry
    rw [hg]
    cases triggerTime e.trigger with
    | none => exact u16_of_be16 g
    | some t => exact u16_of_be16 g

theorem slotOf_b8 (i : Fin 48) : slotOf (b8 i.val) = some i :=
  slotOf_some (by simp only [b8, BitVec.toNat_ofNat]; omega)

/-- An entry in range is read back from its encoding as itself (R28, R134). -/
theorem entryOf_encode {e : HopEntry} (h : e.inRange) : entryOf (wireEntry (encodeEntry e)) = some e := by
  obtain ⟨h1, h2, h3, h4, h5, h6⟩ := wireEntry_encode e
  obtain ⟨-, -, f1, f2, -, f3⟩ := entryFlags_fields e
  obtain ⟨hd, ha⟩ := h
  have htag : (if e.tag.isSome = true then some (wireEntry (encodeEntry e)).tag else none) = e.tag := by
    cases ht : e.tag with
    | none => rfl
    | some g => simp [h6 g ht]
  unfold entryOf entryWithSlot
  simp only [h1, slotOf_b8, h2, modeOf_entryFlags, triggerOf_entryFlags e h5, h3, hd, if_false, h4,
    Nat.not_lt.mpr ha, f1, f2, f3, htag]

/-- The entries of a request are split off one by one (R134). -/
theorem splitEntries_encode (es : List HopEntry) (i : Nat) :
    splitEntries es.length i (es.flatMap encodeEntry) = .ok (es.map encodeEntry) := by
  induction es generalizing i with
  | nil => rfl
  | cons e es ih =>
    have hb : byteAt (encodeEntry e ++ es.flatMap encodeEntry) 1 = entryFlags e := rfl
    have hlen : (encodeEntry e).length = entryLength (entryFlags e) := encodeEntry_length e
    have h7 : 7 ≤ entryLength (entryFlags e) := by unfold entryLength; omega
    rw [List.flatMap_cons, List.length_cons, splitEntries]
    simp only [hb, ← hlen, List.drop_left, List.take_left, ih]
    rw [if_neg]
    · rfl
    · simp only [List.length_append, Bool.or_eq_true, decide_eq_true_eq]
      omega

/-! The request (R26 to R32). -/

/-- A room that the entries fit in (R29). -/
theorem room_fits {ch : Channel} {n : Nat}
    (h : ch.queue.length + n + (if ch.cfg.cycle = true ∧ ch.cur.isSome = true then 1 else 0) ≤ 64) :
    ¬ch.room < n := by
  unfold Channel.room Config.queueCapacity
  by_cases hc : ch.cfg.cycle = true ∧ ch.cur.isSome = true
  · simp only [hc, and_self, if_true, Bool.and_self] at h ⊢; omega
  · simp only [hc, if_false] at h
    simp only [Bool.and_eq_true, hc, if_false]
    omega

/-- Entries that pass checks 4 to 6 of Table 2-3. -/
theorem appendChecked_taken (hroom : ¬(s.chan c).room < es.length)
    (hslot : ∀ q ∈ es, (s.slot q.slot).tone.isSome = true)
    (hlong : ∀ q ∈ es, q.blank = true → (s.chan c).cfg.ramp < q.dwell.toNat) :
    appendChecked c es s = (s.appendEntries c es, [0x00#8, 0#8, b8 ((s.chan c).queue.length + es.length)]) := by
  have h1 : es.findIdx? (fun e => (s.slot e.slot).tone.isNone) = none :=
    List.findIdx?_eq_none_iff.mpr fun q hq => by simpa [Option.isNone_eq_false_iff] using hslot q hq
  have h2 : es.findIdx? (dwellShort (s.chan c).cfg.ramp) = none :=
    List.findIdx?_eq_none_iff.mpr fun q hq => dwellShort_false (hlong q hq)
  simp only [appendChecked, hroom, if_false, h1, h2]
  rfl

/-- The entries of a request in range are read back as themselves (R28, R134). -/
theorem appendParsed_taken (h1 : 1 ≤ es.length) (h8 : es.length ≤ 8) (hr : ∀ q ∈ es, q.inRange) :
    appendParsed c (b8 es.length) (es.flatMap encodeEntry) s = appendChecked c es s := by
  have hn : (b8 es.length).toNat = es.length := by simp only [b8, BitVec.toNat_ofNat]; omega
  have hread : (es.map encodeEntry).findIdx? (fun bs => (entryOf (wireEntry bs)).isNone) = none :=
    List.findIdx?_eq_none_iff.mpr fun bs hb => by
      obtain ⟨q, hq, rfl⟩ := List.mem_map.mp hb
      simp [entryOf_encode (hr q hq)]
  have hback : (es.map encodeEntry).filterMap (fun bs => entryOf (wireEntry bs)) = es := by
    rw [List.filterMap_map]
    conv_rhs => rw [← List.filterMap_some (l := es)]
    exact List.filterMap_congr fun q hq => entryOf_encode (hr q hq)
  have hcount : ¬(es.length = 0 ∨ 8 < es.length) := by omega
  simp only [appendParsed, hn, hcount, if_false, splitEntries_encode, hread, hback]

theorem opHopAppend_taken {channel : Byte} (hc : chanOf channel = some c) (hst : (s.chan c).st ≠ .loading)
    (h1 : 1 ≤ es.length) (h8 : es.length ≤ 8)
    (hq : ∀ q ∈ es, q.inRange ∧ (s.slot q.slot).tone.isSome = true ∧
      (q.blank = true → (s.chan c).cfg.ramp < q.dwell.toNat))
    (hroom : ¬(s.chan c).room < es.length) :
    opHopAppend channel (b8 es.length) (es.flatMap encodeEntry) s =
      (s.appendEntries c es, [0x00#8, 0#8, b8 ((s.chan c).queue.length + es.length)]) := by
  simp only [opHopAppend, hc, hst, if_false]
  rw [appendParsed_taken h1 h8 fun q h => (hq q h).1,
    appendChecked_taken hroom (fun q h => (hq q h).2.1) fun q h => (hq q h).2.2]

/-- Entries that join a queue change it and the pins alone. -/
theorem joined_outside (s : State) (c : Chan) (es : List HopEntry) : let t := s.joined c es
    t.epoch = s.epoch ∧ t.reports = s.reports ∧ t.store = s.store ∧ t.loader = s.loader ∧ t.link = s.link ∧
    t.gateLine = s.gateLine ∧ t.gatePin = s.gatePin ∧ t.ports = s.ports := by
  unfold State.joined
  rw [pinAll_eq]
  simp

/-- A queue that was not empty, and a channel that does not wait or waits on its own hop, evaluate nothing (R31). -/
theorem appendEntries_quiet (h : (s.chan c).queue ≠ [] ∨ ((s.chan c).st ≠ .waiting ∧ (s.chan c).st ≠ .overstay) ∨
    ((s.chan c).st = .overstay ∧ (s.chan c).selfHead = true)) : s.appendEntries c es = s.joined c es := by
  rw [appendEntries_eq, if_neg]
  rintro h0
  simp only [Bool.and_eq_true, Bool.or_eq_true, List.isEmpty_iff, beq_iff_eq, Bool.not_eq_true'] at h0
  obtain ⟨hq, hst⟩ := h0
  rcases h with h | ⟨h, h'⟩ | ⟨h, h'⟩
  · exact h hq
  · rcases hst with hst | ⟨hst, -⟩
    · exact h hst
    · exact h' hst
  · rcases hst with hst | ⟨-, hst⟩
    · simp [h] at hst
    · simp [h'] at hst

/-- The first entry of an empty queue is evaluated in WAITING, and in OVERSTAY where none is offered (R31, R32). -/
theorem appendEntries_evaluated {hop : HopEntry} {rest : List HopEntry} (hq : (s.chan c).queue = [])
    (hes : es = hop :: rest)
    (hst : (s.chan c).st = .waiting ∨ ((s.chan c).st = .overstay ∧ (s.chan c).selfHead = false)) :
    Evaluated ((s.joined c es).setChan c { (s.joined c es).chan c with selfHead := false }) (s.appendEntries c es) c
      hop rest false := by
  have hjoin : ((s.joined c es).chan c).queue = hop :: rest := by rw [(joined_chan s c es).1, hq, hes]; rfl
  have hoff : (s.joined c es).offerHead c =
      (s.joined c es).setChan c { (s.joined c es).chan c with selfHead := false } := by
    simp [State.offerHead, hjoin]
  have hnew : ((s.chan c).queue.isEmpty &&
      ((s.chan c).st == .waiting || ((s.chan c).st == .overstay && !(s.chan c).selfHead))) = true := by
    rcases hst with h | ⟨h, h'⟩
    · simp [hq, h]
    · simp [hq, h, h']
  rw [appendEntries_eq, if_pos hnew, ← hoff]
  refine evaluate_evaluated false ?_
  rw [hoff, State.setChan_chan_same]
  exact .inl ⟨rfl, hjoin⟩

end Sys2Proof.Machine

open Sys2Proof.Machine

/-- Settles O22: the entries are read back and join, and the new head of an empty queue is evaluated. -/
theorem hopAppendTaken : Obligations.HopAppendTaken := by
  intro s r channel c es ht e hc h1 h8 hst hq hroom
  obtain ⟨hown, hother⟩ := joined_chan e c es
  obtain ⟨o1, o2, o3, o4, o5, o6, o7, o8⟩ := joined_outside e c es
  refine ⟨e.joined c es, e.appendEntries c es,
    congrArg _ (request_answers ht (opHopAppend_taken hc hst h1 h8 hq (room_fits hroom))), hown, hother,
    joined_slot e c es, o1, o2, o3, o4, o5, o6, o7, o8, fun h => ?_, fun h h' => ?_,
    fun hop rest hqe hes hw => appendEntries_evaluated hqe hes hw⟩
  · exact appendEntries_quiet (h.imp_right .inl)
  · exact appendEntries_quiet (.inr (.inr ⟨h, h'⟩))

end

section
/-! What changes the epoch count: which operations leave it, and which take an epoch event of the period that is
due. -/

open Sys2Proof

namespace Sys2Proof.Machine

variable {s t u : State} {c : Chan} {op : State → State × List Byte} {k : Kind}

/-! The count of an event of the period. -/

/-- The count stays, or an epoch event that is due makes it 0 (R14). -/
def Epoch.CountSettles (e e' : Epoch) : Prop := e'.count = e.count ∨ (e.eventDue = true ∧ e'.count = 0#48)

/-- A SYNC edge of the period that finds the block armed has made the count 0 (R18). -/
def Epoch.EdgeTaken (e e' : Epoch) : Prop := e.syncDue = true ∧ e.arm ≠ .disarmed ∧ e'.count = 0#48

theorem Epoch.Settles.counts {e e' : Epoch} (h : e.Settles e') : e.CountSettles e' := by
  rcases h with ⟨h, -⟩ | ⟨h, h', -⟩
  · exact .inl h
  · exact .inr ⟨h, h'⟩

theorem Epoch.Settles.then {a b d : Epoch} (h1 : a.Settles b) (h2 : b.CountSettles d) : a.CountSettles d := by
  rcases h2 with h2 | ⟨h2, h2'⟩
  · exact h1.counts.imp h2.trans fun ⟨h, h'⟩ => ⟨h, h2.trans h'⟩
  · rcases h1 with ⟨-, h1⟩ | ⟨-, -, h1⟩
    · exact .inr ⟨h1 h2, h2'⟩
    · simp [h1] at h2

/-- A count that has changed has been made 0 by an edge. -/
theorem Epoch.CountSettles.edge {e e' : Epoch} (h : e.CountSettles e') (hne : e'.count ≠ e.count) :
    e.EdgeTaken e' := by
  rcases h with h | ⟨h, h'⟩
  · exact absurd h hne
  · simp only [Epoch.eventDue, Bool.and_eq_true, bne_iff_ne] at h
    exact ⟨h.1, h.2, h'⟩

/-! The events of a sample period. -/

theorem finish_epoch (s : State) : s.finish.epoch = s.epoch := (finish_kept s).1

theorem takeIf_settles {due : Bool} {effect : State → State}
    (h : due = true → s.epoch.Settles (effect s).epoch) : s.epoch.Settles (s.takeIf due effect).epoch := by
  unfold State.takeIf
  split
  · rename_i hd; rw [finish_epoch]; exact h hd
  · exact .rfl' _

theorem doSyncEdge_settles (s : State) : s.epoch.Settles s.doSyncEdge.epoch := takeIf_settles syncRise_settles

theorem doWrap_settles (s : State) : s.epoch.Settles s.doWrap.epoch := takeIf_settles fun _ => .inl ⟨rfl, id⟩

theorem doWrap_count (s : State) : s.doWrap.epoch.count = s.epoch.count := by
  unfold State.doWrap State.takeIf
  split
  · rw [finish_epoch]; rfl
  · rfl

theorem doGateLine_settles (s : State) : s.epoch.Settles s.doGateLine.epoch :=
  takeIf_settles fun _ => (gateLineChange_kept s).2.2.2.2.2.1

theorem doArrival_settles (s : State) (c : Chan) : s.epoch.Settles (s.doArrival c).epoch :=
  takeIf_settles fun _ => ((EngineMoves.refl s).gateArrive c).epoch

theorem doExpiry_settles (s : State) (c : Chan) : s.epoch.Settles (s.doExpiry c).epoch :=
  takeIf_settles fun _ => ((EngineMoves.refl s).expire c).epoch

theorem doEdge_settles (s : State) (c : Chan) : s.epoch.Settles (s.doEdge c).epoch :=
  takeIf_settles fun _ => ((EngineMoves.refl s).takeEdge c).epoch

theorem doTime_settles (s : State) (c : Chan) : s.epoch.Settles (s.doTime c).epoch :=
  takeIf_settles fun _ => ((EngineMoves.refl s).timeArrive c).epoch

theorem doPairTimer_settles (s : State) (c : Chan) : s.epoch.Settles (s.doPairTimer c).epoch :=
  takeIf_settles fun _ => ((EngineMoves.refl s).pairExpire c).epoch

theorem doChannel_settles (s : State) (c : Chan) : s.epoch.Settles (s.doChannel c).epoch :=
  (((doArrival_settles s c).trans (doExpiry_settles _ c)).trans (doEdge_settles _ c)).trans (doTime_settles _ c)

/-- The events left of a sample period take an epoch event that is due, and no other (R14, R18). -/
theorem closePeriod_settles (s : State) : s.epoch.Settles s.closePeriod.epoch :=
  ((((((doSyncEdge_settles s).trans (doWrap_settles _)).trans (doGateLine_settles _)).trans
    (doChannel_settles _ .A)).trans (doChannel_settles _ .B)).trans (doPairTimer_settles _ .A)).trans
    (doPairTimer_settles _ .B)

theorem noteClock_settles (s : State) (stopped : Bool) : s.epoch.Settles (s.noteClock stopped).epoch := by
  unfold State.noteClock
  split
  · exact closePeriod_settles s
  · exact .rfl' _

theorem frameEnds_settles (s : State) (pins : Pins) : s.epoch.Settles (s.frameEnds pins).epoch :=
  noteClock_settles s.hunt _

theorem frameEnds_epoch {pins : Pins} (h : pins.sclkStopped = false) (s : State) :
    (s.frameEnds pins).epoch = s.epoch := by rw [frameEnds_running h]; rfl

/-! The owners' operations. -/

/-- An operation that leaves the epoch count. -/
def KeepsCount (op : State → State × List Byte) : Prop := ∀ s : State, (op s).1.epoch.count = s.epoch.count

/-- An operation that may take an epoch event that is due. -/
def SettlesCount (op : State → State × List Byte) : Prop := ∀ s : State, s.epoch.CountSettles (op s).1.epoch

theorem KeepsCount.settles (h : KeepsCount op) : SettlesCount op := fun s => .inl (h s)

theorem keepsCount_of_same (ho : ∀ s, (op s).1 = s) : KeepsCount op := fun s => by rw [ho]

theorem opSlotSet_count (index : Byte) (word : BitVec 32) (offset : BitVec 16) (label : List Byte) :
    KeepsCount (opSlotSet index word offset label) := fun s => by
  unfold opSlotSet
  repeat' split
  all_goals rfl

theorem opSlotClear_count (index : Byte) : KeepsCount (opSlotClear index) := fun s => by
  unfold opSlotClear
  repeat' split
  all_goals rfl

theorem opSlotGet_count (index : Byte) : KeepsCount (opSlotGet index) := fun s => by
  unfold opSlotGet
  split <;> rfl

theorem opQueueGet_count (channel first count : Byte) : KeepsCount (opQueueGet channel first count) := fun s => by
  unfold opQueueGet
  repeat' split
  all_goals rfl

theorem opChannelGet_count (channel : Byte) : KeepsCount (opChannelGet channel) := fun s => by
  unfold opChannelGet
  split <;> rfl

theorem opReportConfig_count (mask : BitVec 16) : KeepsCount (opReportConfig mask) := fun s => by
  unfold opReportConfig
  split <;> rfl

theorem opEpochArm_count (arm : ArmState) : KeepsCount (opEpochArm arm) := fun _ => rfl

/-- The end of ENDING towards IDLE starts no hop (R64). -/
theorem endingComplete_idle_epoch (s : State) (c : Chan) : (s.endingComplete c .idle).epoch = s.epoch := by
  simp [State.endingComplete, unpinOpt_epoch]

theorem enterEnding_idle_epoch (s : State) (c : Chan) : (s.enterEnding c .idle).epoch = s.epoch := by
  unfold State.enterEnding
  dsimp only
  split
  · rw [endingComplete_idle_epoch]; simp
  · simp

/-- A stop starts no hop (R67, R68). -/
theorem stopChannel_epoch (s : State) (c : Chan) (now : Bool) : (s.stopChannel c now).epoch = s.epoch := by
  have hw : (s.withdraw c).epoch = s.epoch := by simp [State.withdraw]
  unfold State.stopChannel
  repeat' split
  · rw [enter_epoch, hw]
  · exact enterEnding_idle_epoch s c
  · exact State.setChan_epoch s c _
  · rw [enterEnding_idle_epoch, hw]
  · rw [enterEnding_idle_epoch, hw]
  · exact enter_epoch s c _
  · rfl

theorem cancelLoad_epoch (s : State) : s.cancelLoad.epoch = s.epoch := by
  cases hc : s.loader.ctx with
  | none => rw [cancelLoad_none hc]
  | some k => rw [cancelLoad_eq hc, (failLoad_ended s k _ _).epoch]

theorem opStop_count (channel : Byte) (now : Bool) : KeepsCount (opStop channel now) := fun s => by
  unfold opStop State.stopOrCancel
  split
  · rfl
  · dsimp only [answerOk]
    split
    · rw [cancelLoad_epoch]
    · rw [stopChannel_epoch]

theorem opStopMode_count (channel mode : Byte) : KeepsCount (opStopMode channel mode) := fun s => by
  unfold opStopMode
  repeat' split
  exacts [opStop_count channel _ s, opStop_count channel _ s, rfl]

/-- A change of the hold set of an IDLE channel moves its gate alone. -/
theorem changeHold_idle {h : HoldSet} (hst : (s.chan c).st = .idle) : s.changeHold c h = s.applyHold c h := by
  have hr : (s.chan c).readyBlankOverstay = false := by simp [Channel.readyBlankOverstay, hst]
  have hg : (s.applyHold c h).gateReportsClosed c = s.applyHold c h := by
    simp only [State.gateReportsClosed, applyHold_chan, hst]
  unfold State.changeHold
  simp [hr, hg]

theorem opChannelConfig_count (channel policy cycle edge : Byte) (ramp : BitVec 16) (follow : Byte)
    (pairTimeout : BitVec 24) :
    KeepsCount (opChannelConfig channel policy cycle edge ramp follow pairTimeout) := fun s => by
  unfold opChannelConfig
  repeat' split
  · rfl
  · rfl
  · rfl
  · rfl
  · rename_i hst _ _ _
    simp only [not_or, ne_eq, Decidable.not_not] at hst
    dsimp only [answerOk, State.configure]
    rw [changeHold_idle (by rw [State.setChan_chan_same]; exact hst.1)]
    simp

theorem resetChannels_epoch (s : State) : s.resetChannels.epoch = s.epoch := by
  unfold State.resetChannels
  rw [(unpinSlots_kept _).2.2.2.2, (resetChannel_kept _ _).2.2.2.2.1, (resetChannel_kept _ _).2.2.2.2.1,
    cancelLoad_epoch]

theorem opResetChannels_count : KeepsCount opResetChannels := fun s => by
  unfold opResetChannels
  dsimp only [answerOk]
  rw [resetChannels_epoch]

theorem opResetFull_count : KeepsCount opResetFull := fun s => by
  unfold opResetFull
  split <;> rfl

theorem opResetScope_count (scope : Byte) : KeepsCount (opResetScope scope) := fun s => by
  unfold opResetScope
  repeat' split
  exacts [opResetChannels_count s, opResetFull_count s, rfl]

theorem opStoreErase_count (area seq : Byte) (wp : Bool) : KeepsCount (opStoreErase area seq wp) := fun s => by
  unfold opStoreErase
  dsimp only
  repeat' split
  all_goals rfl

theorem opStoreWrite_count (area chunk : Byte) (data : List Byte) (seq : Byte) (wp : Bool) :
    KeepsCount (opStoreWrite area chunk data seq wp) := fun s => by
  unfold opStoreWrite
  dsimp only
  repeat' split
  all_goals rfl

theorem opStoreCommit_count (area autostart channel startAfter seq : Byte) (wp : Bool) :
    KeepsCount (opStoreCommit area autostart channel startAfter seq wp) := fun s => by
  unfold opStoreCommit
  repeat' split
  all_goals rfl

theorem opStoreRevoke_count (area seq : Byte) (wp : Bool) : KeepsCount (opStoreRevoke area seq wp) := fun s => by
  unfold opStoreRevoke
  repeat' split
  all_goals rfl

theorem opStoreRead_count (area : Byte) (offset : BitVec 16) (length : Byte) :
    KeepsCount (opStoreRead area offset length) := fun s => by
  unfold opStoreRead
  repeat' split
  all_goals rfl

theorem opStoreBlank_count (area : Byte) : KeepsCount (opStoreBlank area) := fun s => by
  unfold opStoreBlank
  repeat' split
  all_goals rfl

theorem opStoreDigest_count (area first last : Byte) : KeepsCount (opStoreDigest area first last) := fun s => by
  unfold opStoreDigest
  repeat' split
  all_goals rfl

theorem opStoreInfo_count : KeepsCount opStoreInfo := fun s => by
  unfold opStoreInfo
  split <;> rfl

theorem opLoad_count (area channel start seq : Byte) : KeepsCount (opLoad area channel start seq) := fun s => by
  unfold opLoad
  repeat' split
  · rfl
  · rfl
  · rfl
  · dsimp only; rw [(acceptLoad_taken s _).epoch]
  · rfl

/-! The operations that start hops. -/

theorem opHopAppend_settles (channel count : Byte) (entries : List Byte) :
    SettlesCount (opHopAppend channel count entries) := fun s => by
  unfold opHopAppend appendParsed appendChecked
  dsimp only
  repeat' split
  all_goals first
    | exact .inl rfl
    | exact ((EngineMoves.refl s).appendEntries _ _).epoch.counts

theorem flush_settles (s : State) (c : Chan) : s.epoch.Settles (s.flush c).epoch := by
  by_cases hst : (s.chan c).st = .loading
  · have hf : s.flush c = (s.emptyQueue c).cancelLoad := by simp only [State.flush, hst, if_true]
    rw [hf, cancelLoad_epoch]
    exact ((EngineMoves.refl s).emptyQueue c).epoch
  · exact ((EngineMoves.refl s).flush c hst).epoch

theorem opHopFlush_settles (channel : Byte) : SettlesCount (opHopFlush channel) := fun s => by
  unfold opHopFlush
  split
  · exact .inl rfl
  · exact (flush_settles s _).counts

theorem opStart_settles (channel : Byte) : SettlesCount (opStart channel) := fun s => by
  unfold opStart
  repeat' split
  · exact .inl rfl
  · exact .inl rfl
  · exact ((EngineMoves.refl s).startChannel _).epoch.counts
  · exact .inl rfl

theorem opGate_settles (channel : Byte) (hold : Bool) : SettlesCount (opGate channel hold) := fun s => by
  unfold opGate
  split
  · exact .inl rfl
  · exact (changeHold_changed s _ _).epoch.counts

theorem opGateAction_settles (channel action : Byte) : SettlesCount (opGateAction channel action) := fun s => by
  unfold opGateAction
  repeat' split
  exacts [opGate_settles channel _ s, opGate_settles channel _ s, .inl rfl]

/-! A request by its kind (Table 6-4). -/

/-- EPOCH by its mode: NOW makes the count 0, and no other changes it (R16, R19). -/
theorem opEpochMode_count (mode : Byte) (s : State) :
    (opEpochMode mode s).1.epoch.count = if mode = 0#8 then 0#48 else s.epoch.count := by
  unfold opEpochMode
  split
  · exact congrArg Epoch.count (epochEvent_kept s .request).2.2.2.2.1
  · repeat' split
    all_goals rfl

/-- The kinds whose requests start no hop and make no epoch event. -/
def Kind.still : Kind → Bool
  | .epoch | .hopAppend | .hopFlush | .start | .gate => false
  | _ => true

theorem ownerOf_count (hk : k.still = true) (p : List Byte) (seq : Byte) (wp : Bool) :
    KeepsCount (ownerOf k p seq wp) := by
  cases k with
  | ping => exact keepsCount_of_same fun _ => rfl
  | identify => exact keepsCount_of_same fun _ => rfl
  | status => exact keepsCount_of_same fun _ => rfl
  | reset => exact opResetScope_count _
  | slotSet => exact opSlotSet_count _ _ _ _
  | slotClear => exact opSlotClear_count _
  | slotGet => exact opSlotGet_count _
  | epochGet => exact keepsCount_of_same fun _ => rfl
  | queueGet => exact opQueueGet_count _ _ _
  | stop => exact opStopMode_count _ _
  | channelConfig => exact opChannelConfig_count _ _ _ _ _ _ _
  | channelGet => exact opChannelGet_count _
  | reportConfig => exact opReportConfig_count _
  | storeErase => exact opStoreErase_count _ _ _
  | storeWrite => exact opStoreWrite_count _ _ _ _ _
  | storeCommit => exact opStoreCommit_count _ _ _ _ _ _
  | storeRevoke => exact opStoreRevoke_count _ _ _
  | storeRead => exact opStoreRead_count _ _ _
  | storeBlank => exact opStoreBlank_count _
  | storeDigest => exact opStoreDigest_count _ _ _
  | storeInfo => exact opStoreInfo_count
  | load => exact opLoad_count _ _ _ _
  | epoch => simp [Kind.still] at hk
  | hopAppend => simp [Kind.still] at hk
  | hopFlush => simp [Kind.still] at hk
  | start => simp [Kind.still] at hk
  | gate => simp [Kind.still] at hk

theorem ownerOf_settles (hk : k ≠ .epoch) (p : List Byte) (seq : Byte) (wp : Bool) :
    SettlesCount (ownerOf k p seq wp) := by
  cases hs : k.still with
  | true => exact (ownerOf_count hs p seq wp).settles
  | false =>
    cases k with
    | epoch => exact absurd rfl hk
    | hopAppend => exact opHopAppend_settles _ _ _
    | hopFlush => exact opHopFlush_settles _
    | start => exact opStart_settles _
    | gate => exact opGateAction_settles _ _
    | _ => simp [Kind.still] at hs

/-! An accepted frame (R115). -/

/-- An accepted frame leaves the epoch, or hands a payload of its kind's length to the owner (R115, R132). -/
theorem acceptFrame_epoch (s : State) (kind seq : Byte) (payload : List Byte) (run : State → State × List Byte) :
    (s.acceptFrame kind seq payload run).epoch = s.epoch ∨
      ∃ v : State, v.epoch = s.epoch ∧ (s.acceptFrame kind seq payload run).epoch = (run v).1.epoch := by
  have hr (v : State) : (v.refuseWindow kind seq).epoch = v.epoch := by
    unfold State.refuseWindow
    split <;> rfl
  unfold State.acceptFrame
  dsimp only
  split
  · exact .inl rfl
  · split
    · exact .inl rfl
    · exact .inl (hr s)
  · split
    · exact .inr ⟨{ s with link := { s.link with cache := cacheWithout seq s.link.cache } }, rfl, rfl⟩
    · exact .inl (hr _)
  · split
    · exact .inr ⟨s, rfl, rfl⟩
    · exact .inl (hr s)

theorem acceptKind_epoch (s : State) (k : Kind) (seq : Byte) (payload : List Byte)
    (op : State → State × List Byte) : (s.acceptKind k seq payload op).epoch = s.epoch ∨
      (lengthFits k payload = true ∧
        ∃ v : State, v.epoch = s.epoch ∧ (s.acceptKind k seq payload op).epoch = (op v).1.epoch) := by
  unfold State.acceptKind
  rw [finish_epoch]
  rcases acceptFrame_epoch s (kindCode k) seq payload (answer k seq payload op) with h | ⟨v, hv, h⟩
  · exact .inl h
  · rw [h]
    unfold answer
    split
    · rename_i hl; exact .inr ⟨hl, v, hv, rfl⟩
    · exact .inl hv

theorem acceptUnknown_epoch (s : State) (kind seq : Byte) (payload : List Byte) :
    (s.acceptUnknown kind seq payload).epoch = s.epoch := by
  unfold State.acceptUnknown
  rw [finish_epoch]
  rcases acceptFrame_epoch s kind seq payload (answerUnknown kind seq) with h | ⟨v, hv, h⟩
  · exact h
  · rw [h]; exact hv

/-- A request that leaves the count changes it only by the events of the last period, with SCLK stopped (R50). -/
theorem acceptKind_count (ho : KeepsCount op) (s : State) (k : Kind) (seq : Byte) (payload : List Byte) :
    (s.acceptKind k seq payload op).epoch.count = s.epoch.count := by
  rcases acceptKind_epoch s k seq payload op with h | ⟨-, v, hv, h⟩
  · rw [h]
  · rw [h, ho v, hv]

theorem acceptKind_settles (ho : SettlesCount op) (s : State) (k : Kind) (seq : Byte) (payload : List Byte) :
    s.epoch.CountSettles (s.acceptKind k seq payload op).epoch := by
  rcases acceptKind_epoch s k seq payload op with h | ⟨-, v, hv, h⟩
  · rw [h]; exact .inl rfl
  · rw [h, ← hv]; exact ho v

/-- The state in which a frame is executed has another count only with SCLK stopped. -/
theorem frameEnds_edge {pins : Pins} (h : u.epoch.count = (s.frameEnds pins).epoch.count)
    (hne : u.epoch.count ≠ s.epoch.count) : s.epoch.EdgeTaken u.epoch ∧ pins.sclkStopped = true := by
  refine ⟨(Epoch.Settles.then (frameEnds_settles s pins) (.inl h)).edge hne, ?_⟩
  cases hp : pins.sclkStopped with
  | true => rfl
  | false => rw [h, frameEnds_epoch hp] at hne; exact absurd rfl hne

/-- A request of a kind that neither starts a hop nor makes an epoch event. -/
theorem request_still (hk : k.still = true) (ho : KeepsCount op) {r : Req} {payload : List Byte}
    (hne : (s.request r k payload op).epoch.count ≠ s.epoch.count) :
    s.epoch.EdgeTaken (s.request r k payload op).epoch ∧ r.pins.sclkStopped = true := by
  unfold State.request at hne ⊢
  split at hne
  · exact absurd rfl hne
  · rename_i hd
    rw [if_neg hd]
    split at hne
    · exact frameEnds_edge (acceptKind_count ho _ k r.seq payload) hne
    · exact frameEnds_edge (acceptKind_count (ownerOf_count hk _ _ _) _ k r.seq _) hne

/-- A request of a kind that may start a hop. -/
theorem request_settles (hk : k ≠ .epoch) (ho : SettlesCount op) (s : State) (r : Req) (payload : List Byte) :
    s.epoch.CountSettles (s.request r k payload op).epoch := by
  unfold State.request
  repeat' split
  · exact .inl rfl
  · exact (frameEnds_settles s r.pins).then (acceptKind_settles ho _ k r.seq payload)
  · exact (frameEnds_settles s r.pins).then (acceptKind_settles (ownerOf_settles hk _ _ _) _ k r.seq _)

/-- A frame of kind EPOCH whose payload has one byte: NOW makes the count 0, or the frame leaves it. -/
theorem acceptEpoch_count (s : State) (seq : Byte) (p : List Byte) (wp : Bool) :
    (s.acceptKind .epoch seq p (ownerOf .epoch p seq wp)).epoch.count = s.epoch.count ∨
      (p = [0x00#8] ∧ (s.acceptKind .epoch seq p (ownerOf .epoch p seq wp)).epoch.count = 0#48) := by
  rcases acceptKind_epoch s .epoch seq p (ownerOf .epoch p seq wp) with h | ⟨hl, v, hv, h⟩
  · exact .inl (by rw [h])
  · obtain ⟨b, rfl⟩ : ∃ b, p = [b] := List.length_eq_one_iff.mp (by simpa [lengthFits] using hl)
    have hc := opEpochMode_count b v
    rw [h]
    by_cases hb : b = 0#8
    · rw [if_pos hb] at hc
      exact .inr ⟨by rw [hb], hc⟩
    · rw [if_neg hb, hv] at hc
      exact .inl hc

/-- The arming modes of EPOCH, as a row of its own and as a raw frame (R19). -/
theorem request_arming (ho : KeepsCount op) {r : Req} {payload : List Byte}
    (hne : (s.request r .epoch payload op).epoch.count ≠ s.epoch.count) :
    (r.raw = some [0x00#8] ∧ (s.request r .epoch payload op).epoch.count = 0#48) ∨
      (s.epoch.EdgeTaken (s.request r .epoch payload op).epoch ∧ r.pins.sclkStopped = true) := by
  unfold State.request at hne ⊢
  split at hne
  · exact absurd rfl hne
  · rename_i hd
    rw [if_neg hd]
    split at hne
    · exact .inr (frameEnds_edge (acceptKind_count ho _ .epoch r.seq payload) hne)
    · rename_i p hraw
      rcases acceptEpoch_count (s.frameEnds r.pins) r.seq p r.pins.wp with h | ⟨h, h'⟩
      · exact .inr (frameEnds_edge h hne)
      · exact .inl ⟨by rw [hraw, h], h'⟩

/-! The receiver (R111). -/

theorem kindCode_of_kindOf {b : Byte} (h : kindOf b = some k) : kindCode k = b := by
  simpa using List.find?_some h

theorem acceptBytes_settles (s : State) (kind seq : Byte) (p : List Byte) (wp : Bool) :
    s.epoch.CountSettles (s.acceptBytes kind seq p wp).epoch ∨
      (kind = 0x0C#8 ∧ p = [0x00#8] ∧ (s.acceptBytes kind seq p wp).epoch.count = 0#48) := by
  unfold State.acceptBytes
  split
  · rename_i k hk
    by_cases he : k = .epoch
    · subst he
      rcases acceptEpoch_count s seq p wp with h | ⟨h, h'⟩
      · exact .inl (.inl h)
      · exact .inr ⟨(kindCode_of_kindOf hk).symm, h, h'⟩
    · exact .inl (acceptKind_settles (ownerOf_settles he _ _ _) s k seq p)
  · rw [acceptUnknown_epoch]; exact .inl (.inl rfl)

theorem receiverFault_epoch (s : State) (reason : FaultReason) : (s.receiverFault reason).epoch = s.epoch := by
  unfold State.receiverFault
  rw [finish_epoch]
  rfl

/-- The parts of a whole frame with one payload byte (R111, Table 7-1). -/
theorem frame_of_one {bytes : List Byte} {b x : Byte}
    (h : ((bytes ++ [b]).take ((bytes ++ [b]).length - 2)).drop 3 = [x]) :
    ∃ n kind seq hi, bytes = [n, kind, seq, x, hi] := by
  have hl : bytes.length = 5 := by
    have := congrArg List.length h
    simp at this
    omega
  match bytes, hl with
  | [n, kind, seq, y, hi], _ => exact ⟨n, kind, seq, hi, by simpa using h⟩

/-- A whole frame takes an epoch event that is due, or is EPOCH NOW (R19, R111). -/
theorem checkFrame_settles (s : State) (bytes : List Byte) (b : Byte) (pins : Pins) :
    s.epoch.CountSettles (s.checkFrame (bytes ++ [b]) pins).epoch ∨
      ∃ n seq hi, bytes = [n, 0x0C#8, seq, 0x00#8, hi] ∧ crc16 [n, 0x0C#8, seq, 0x00#8] = hi ++ b ∧
        (s.checkFrame (bytes ++ [b]) pins).epoch.count = 0#48 := by
  unfold State.checkFrame
  dsimp only
  split
  · rename_i hcrc
    rcases acceptBytes_settles (s.frameEnds pins) _ _ _ pins.wp with h | ⟨hkind, hp, h⟩
    · exact .inl ((frameEnds_settles s pins).then h)
    · obtain ⟨n, kind, seq, hi, rfl⟩ := frame_of_one hp
      obtain rfl : kind = 0x0C#8 := hkind
      exact .inr ⟨n, seq, hi, rfl, hcrc, h⟩
  · rw [receiverFault_epoch]; exact .inl (.inl rfl)

/-- A byte before the last of its frame makes no request (R111, R112). -/
theorem takeByte_epoch (h : s.link.rx ≠ .checkLo) (b : Byte) (pins : Pins) :
    (s.takeByte b pins).epoch = s.epoch := by
  unfold State.takeByte
  dsimp only
  split
  · split <;> rfl
  · split
    · exact receiverFault_epoch s _
    · rfl
  · rfl
  · rfl
  · rfl
  · rfl
  · rename_i hrx; exact absurd hrx h

theorem takeByte_checkLo (h : s.link.rx = .checkLo) (b : Byte) (pins : Pins) :
    s.takeByte b pins = s.checkFrame (s.link.buf ++ [b]) pins := by
  simp only [State.takeByte, h]

/-- A character changes the count as the last of its frame alone, by an edge of the last period or as EPOCH NOW
(R19, R111). -/
theorem byteReceived_count {stopHigh : Bool} {b : Byte} {pins : Pins}
    (hx : execByteReceived stopHigh b pins s = .next t) (hne : t.epoch.count ≠ s.epoch.count) :
    s.link.rx = .checkLo ∧ (s.epoch.EdgeTaken t.epoch ∨ ∃ n seq hi, s.link.buf = [n, 0x0C#8, seq, 0x00#8, hi] ∧
      crc16 [n, 0x0C#8, seq, 0x00#8] = hi ++ b ∧ t.epoch.count = 0#48) := by
  unfold execByteReceived at hx
  split at hx
  · cases hx; exact absurd rfl hne
  · cases hx
    by_cases hrx : s.link.rx = .checkLo
    · rw [takeByte_checkLo hrx] at hne ⊢
      exact ⟨hrx, (checkFrame_settles s _ b pins).imp_left fun h => h.edge hne⟩
    · rw [takeByte_epoch hrx] at hne; exact absurd rfl hne

/-- A request of an unknown kind is refused, and changes the count only by the events of the last period, with
SCLK stopped (R116). -/
theorem unknownKind_count {seq kind : Byte} {pins : Pins} {payload : List Byte}
    (hx : execUnknownKind seq pins kind payload s = .next t) (hne : t.epoch.count ≠ s.epoch.count) :
    s.epoch.EdgeTaken t.epoch ∧ pins.sclkStopped = true := by
  unfold execUnknownKind at hx
  split at hx
  · cases hx; exact absurd rfl hne
  · cases hx
    exact frameEnds_edge (congrArg Epoch.count (acceptUnknown_epoch _ kind seq payload)) hne

/-! The completion of a load (R173). -/

theorem applyLoad_settles (s : State) (j : LoadCtx) (p : Program) : s.epoch.Settles (s.applyLoad j p).epoch := by
  have hi : (s.installProgram j.chan p).endLoad.epoch = s.epoch := by
    obtain ⟨-, -, -, he, -, -⟩ := endLoad_kept (s.installProgram j.chan p)
    obtain ⟨-, -, -, -, he', -⟩ := (installProgram_installed s j.chan p).outside
    rw [he, he']
  unfold State.applyLoad
  dsimp only
  rw [State.report_epoch, ← hi]
  split
  · exact ((EngineMoves.refl _).startChannel j.chan).epoch
  · rw [enter_epoch]; exact .rfl' _

theorem checkLoad_settles (s : State) (j : LoadCtx) (p : Program) : s.epoch.Settles (s.checkLoad j p).epoch := by
  unfold State.checkLoad
  repeat' split
  · rw [(failLoad_ended s j _ _).epoch]; exact .rfl' _
  · rw [(failLoad_ended s j _ _).epoch]; exact .rfl' _
  · exact applyLoad_settles s j p

theorem corruptLoad_epoch (s : State) (j : LoadCtx) : (s.corruptLoad j).epoch = s.epoch :=
  (failLoad_ended _ j _ _).epoch

/-- The completion of a load takes an epoch event of the period with the start of its channel (R66, R178). -/
theorem completeLoad_settles (s : State) (j : LoadCtx) : s.epoch.Settles (s.completeLoad j).epoch := by
  unfold State.completeLoad
  dsimp only
  split
  · rw [corruptLoad_epoch]; exact .rfl' _
  · split
    · rw [corruptLoad_epoch]; exact .rfl' _
    · split
      · rw [corruptLoad_epoch]; exact .rfl' _
      · exact checkLoad_settles (s.stage j _) j _

theorem loadReadComplete_settles {stopped : Bool} (hx : exec (.loadReadComplete stopped) s = .next t) :
    s.epoch.CountSettles t.epoch := by
  cases hc : s.loader.ctx with
  | none =>
    rw [execLoad_none stopped hc] at hx
    cases hx
    exact .inl rfl
  | some j =>
    rw [execLoad_some stopped hc] at hx
    cases hx
    rw [finish_epoch]
    exact (noteClock_settles s stopped).then (completeLoad_settles _ j).counts

/-! The events of the line, of autostart and of the store. -/

theorem receiver_epoch (idle : Bool) (s : State) (reason : FaultReason) :
    (if idle then s else s.receiverFault reason).epoch = s.epoch := by
  split
  · rfl
  · exact receiverFault_epoch s reason

theorem transmissionEnd_epoch (s : State) : s.transmissionEnd.epoch = s.epoch := by
  unfold State.transmissionEnd
  split
  · rfl
  · rw [finish_epoch]; rfl
  · rw [finish_epoch]
  · rw [finish_epoch]

theorem autoStep_epoch (s : State) (a : AutoArea) : (s.autoStep a).epoch = s.epoch := by
  unfold State.autoStep
  dsimp only
  repeat' split
  · rfl
  · rfl
  · rfl
  · exact (acceptLoad_taken _ _).epoch

theorem validate_epoch (s : State) (area : Fin 8) (seq : Byte) (autostart : Bool) (d : Chan) (startAfter : Bool) :
    (s.validate area seq autostart d startAfter).epoch = s.epoch := by
  unfold State.validate
  split <;> rfl

/-- The events of the line, of autostart and of the store, but for the completion of a load. -/
def silentEvent : Instr → Bool
  | .lengthFault .. | .checkFault .. | .interbyteTimeout | .rxBreak | .transmissionEnd | .autostartStep
  | .scanComplete | .eraseComplete | .writeComplete | .validation | .commitComplete | .revokeComplete
  | .retentionLoss .. => true
  | _ => false

theorem silentEvent_epoch {i : Instr} (hi : silentEvent i = true) (hx : exec i s = .next t) :
    t.epoch = s.epoch := by
  cases i with
  | lengthFault | checkFault | interbyteTimeout | rxBreak => cases hx; exact receiver_epoch _ s _
  | transmissionEnd => cases hx; exact transmissionEnd_epoch s
  | autostartStep =>
    cases hx
    split
    · unfold State.takeIf
      split
      · rw [finish_epoch, autoStep_epoch]
      · rfl
    · rfl
  | validation =>
    cases hx
    split
    · rw [finish_epoch, validate_epoch]
    · rfl
  | scanComplete | eraseComplete | writeComplete | commitComplete | revokeComplete =>
    cases hx
    split
    · rw [finish_epoch]; rfl
    · rfl
  | retentionLoss area changes =>
    have hx' : (if area < 8 ∧ changes.all offsetExists = true then .next (s.lose area changes)
      else .fault .noSuchByte : Result) = .next t := hx
    split at hx'
    · cases hx'; rfl
    · cases hx'
  | _ => simp [silentEvent] at hi

/-- A request that neither starts a hop nor makes an epoch event, as its row gives it. -/
theorem request_stopped {i : Instr} {r : Req} {p : List Byte} (hi : requestOf i = some (r, k, p))
    (hk : k.still = true) (ho : KeepsCount op) (hx : Host.Outcome.next (s.request r k p op) = exec i s)
    (ht : exec i s = .next t) (hne : t.epoch.count ≠ s.epoch.count) :
    s.epoch.EdgeTaken t.epoch ∧ ∃ r k p, requestOf i = some (r, k, p) ∧ r.pins.sclkStopped = true := by
  cases hx.trans ht
  obtain ⟨h, hs⟩ := request_still hk ho hne
  exact ⟨h, r, k, p, hi, hs⟩

end Sys2Proof.Machine

open Sys2Proof.Machine

/-- Settles O8: row by row, with what the count does under each owner's operation (Table 6-4). -/
theorem epochCountChangers : Obligations.EpochCountChangers := by
  intro i s t hx hne edge
  cases i with
  | epochNow | syncEdge | samplePeriod | fullReset | coldReset => trivial
  | byteReceived stopHigh b pins => exact byteReceived_count hx hne
  | epochArmOnce | epochArmEvery | epochDisarm => cases hx; exact request_arming (opEpochArm_count _) hne
  | unknownKind seq pins kind payload => exact unknownKind_count hx hne
  | hopAppend r channel count entries =>
    cases hx; exact (request_settles (by decide) (opHopAppend_settles channel count entries) s r _).edge hne
  | hopFlush r channel => cases hx; exact (request_settles (by decide) (opHopFlush_settles channel) s r _).edge hne
  | start r channel => cases hx; exact (request_settles (by decide) (opStart_settles channel) s r _).edge hne
  | gateHold r channel => cases hx; exact (request_settles (by decide) (opGate_settles channel true) s r _).edge hne
  | gateRelease r channel =>
    cases hx; exact (request_settles (by decide) (opGate_settles channel false) s r _).edge hne
  | loadReadComplete stopped => exact (loadReadComplete_settles hx).edge hne
  | dwellExpiry c => cases hx; exact (doExpiry_settles s c).counts.edge hne
  | pairTimerExpiry c => cases hx; exact (doPairTimer_settles s c).counts.edge hne
  | gateArrival c => cases hx; exact (doArrival_settles s c).counts.edge hne
  | triggerEdge c => cases hx; exact (doEdge_settles s c).counts.edge hne
  | timeArrival c => cases hx; exact (doTime_settles s c).counts.edge hne
  | gateLineChange => cases hx; exact (doGateLine_settles s).counts.edge hne
  | wrap => cases hx; exact hne (doWrap_count s)
  | ping | identify | status | epochGet => exact request_stopped rfl rfl (keepsCount_of_same fun _ => rfl) rfl hx hne
  | resetChannels r => exact request_stopped rfl rfl opResetChannels_count rfl hx hne
  | resetFull r => exact request_stopped rfl rfl opResetFull_count rfl hx hne
  | slotSet r index word offset label =>
    exact request_stopped rfl rfl (opSlotSet_count index word offset label) rfl hx hne
  | slotClear r index => exact request_stopped rfl rfl (opSlotClear_count index) rfl hx hne
  | slotGet r index => exact request_stopped rfl rfl (opSlotGet_count index) rfl hx hne
  | queueGet r channel first count => exact request_stopped rfl rfl (opQueueGet_count channel first count) rfl hx hne
  | stopAtEnd r channel => exact request_stopped rfl rfl (opStop_count channel false) rfl hx hne
  | stopNow r channel => exact request_stopped rfl rfl (opStop_count channel true) rfl hx hne
  | channelConfig r channel policy cycle edge ramp follow pairTimeout =>
    exact request_stopped rfl rfl (opChannelConfig_count channel policy cycle edge ramp follow pairTimeout) rfl hx hne
  | channelGet r channel => exact request_stopped rfl rfl (opChannelGet_count channel) rfl hx hne
  | reportConfig r mask => exact request_stopped rfl rfl (opReportConfig_count mask) rfl hx hne
  | storeErase r area => exact request_stopped rfl rfl (opStoreErase_count area r.seq r.pins.wp) rfl hx hne
  | storeWrite r area chunk data =>
    exact request_stopped rfl rfl (opStoreWrite_count area chunk data r.seq r.pins.wp) rfl hx hne
  | storeCommit r area autostart channel startAfter =>
    exact request_stopped rfl rfl (opStoreCommit_count area autostart channel startAfter r.seq r.pins.wp) rfl hx hne
  | storeRevoke r area => exact request_stopped rfl rfl (opStoreRevoke_count area r.seq r.pins.wp) rfl hx hne
  | storeRead r area offset length => exact request_stopped rfl rfl (opStoreRead_count area offset length) rfl hx hne
  | storeBlank r area => exact request_stopped rfl rfl (opStoreBlank_count area) rfl hx hne
  | storeDigest r area first last => exact request_stopped rfl rfl (opStoreDigest_count area first last) rfl hx hne
  | storeInfo r => exact request_stopped rfl rfl opStoreInfo_count rfl hx hne
  | load r area channel startFlag =>
    exact request_stopped rfl rfl (opLoad_count area channel startFlag r.seq) rfl hx hne
  | _ => exact absurd (congrArg Epoch.count (silentEvent_epoch rfl hx)) hne
end

section
/-! The requests of the queues: an encoded entry followed by other bytes, the refusals of HOP_APPEND in the order of
their checks, and QUEUE_GET. -/

open Sys2Proof

namespace Sys2Proof.Machine

variable {s : State} {c : Chan} {q : HopEntry} {es : List HopEntry} {channel count : Byte} {entries : List Byte}

/-! Entries split off one by one (R27, R134). -/

/-- Bytes that take up the length their flags byte gives. -/
def WholeEntry (raw : List Byte) : Prop := 2 ≤ raw.length ∧ raw.length = entryLength (byteAt raw 1)

theorem encodeEntry_whole (e : HopEntry) : WholeEntry (encodeEntry e) := by
  refine ⟨?_, encodeEntry_length e⟩
  rw [encodeEntry_length, entryLength]
  omega

theorem WholeEntry.byteAt_append {raw : List Byte} (h : WholeEntry raw) (rest : List Byte) :
    byteAt (raw ++ rest) 1 = byteAt raw 1 := List.getD_append _ _ _ _ h.1

/-- A whole entry is split off, whatever follows it. -/
theorem splitEntries_whole {raw : List Byte} (h : WholeEntry raw) (rest : List Byte) (n i : Nat) :
    splitEntries (n + 1) i (raw ++ rest) = (splitEntries n (i + 1) rest).map fun raws => raw :: raws := by
  have hlong : ¬((raw ++ rest).length < 2 ∨ (raw ++ rest).length < raw.length) := by
    have := h.1
    rw [List.length_append]
    omega
  rw [splitEntries]
  simp only [h.byteAt_append, ← h.2, Bool.or_eq_true, decide_eq_true_eq, hlong, if_false, List.drop_left,
    List.take_left]
  cases splitEntries n (i + 1) rest <;> rfl

/-- Whole entries are split off up to what follows them. -/
theorem splitEntries_wholes {raws : List (List Byte)} (h : ∀ raw ∈ raws, WholeEntry raw) (tail : List Byte)
    (n i : Nat) : splitEntries (raws.length + n) i (raws.flatten ++ tail) =
      (splitEntries n (i + raws.length) tail).map fun more => raws ++ more := by
  induction raws generalizing i with
  | nil =>
    simp only [List.length_nil, Nat.zero_add, Nat.add_zero, List.flatten_nil, List.nil_append]
    cases splitEntries n i tail <;> rfl
  | cons raw raws ih =>
    rw [List.length_cons, Nat.add_right_comm, List.flatten_cons, List.append_assoc,
      splitEntries_whole (h raw (by simp)), ih fun x hx => h x (by simp [hx]), Nat.add_right_comm i 1]
    cases splitEntries n (i + raws.length + 1) tail <;> rfl

theorem splitEntries_cut {tail : List Byte} (h : tail.length < 2 ∨ tail.length < entryLength (byteAt tail 1))
    (n i : Nat) : splitEntries (n + 1) i tail = .error i := by
  rw [splitEntries]
  simp only [Bool.or_eq_true, decide_eq_true_eq, h, if_true]

theorem splitEntries_over {tail : List Byte} (h : tail ≠ []) (i : Nat) : splitEntries 0 i tail = .error (i - 1) := by
  simp [splitEntries, h]

/-! The range tests (R28). -/

theorem modeOf_isNone (flags : Byte) : (modeOf flags).isNone = true ↔ flags.toNat % 4 = 3 := by
  have hbits : (flags.extractLsb' 0 2).toNat = flags.toNat % 4 := by simp [BitVec.extractLsb'_toNat]
  have hlt : flags.toNat % 4 < 4 := Nat.mod_lt _ (by decide)
  unfold modeOf
  rw [hbits]
  generalize flags.toNat % 4 = m at hlt ⊢
  match m, hlt with
  | 0, _ | 1, _ | 2, _ | 3, _ => simp

theorem triggerOf_isNone (flags : Byte) (time : BitVec 48) : (triggerOf flags time).isNone = true ↔
    (flags.getLsbD 6 = true ↔ flags.toNat / 4 % 4 ≠ 2) := by
  have hbits : (flags.extractLsb' 2 2).toNat = flags.toNat / 4 % 4 := by
    simp [BitVec.extractLsb'_toNat, Nat.shiftRight_eq_div_pow]
  have hlt : flags.toNat / 4 % 4 < 4 := Nat.mod_lt _ (by decide)
  unfold triggerOf
  rw [hbits]
  generalize flags.toNat / 4 % 4 = g at hlt ⊢
  match g, hlt with
  | 0, _ | 1, _ | 2, _ | 3, _ => cases flags.getLsbD 6 <;> simp

theorem slotOf_isNone (b : Byte) : (slotOf b).isNone = true ↔ 48 ≤ b.toNat := by
  unfold slotOf
  split <;> simp <;> omega

theorem entryWithSlot_isNone (i : Fin 48) (r : RawEntry) : (entryWithSlot i r).isNone = true ↔
    (modeOf r.flags).isNone = true ∨ (triggerOf r.flags r.time).isNone = true ∨ r.dwell = 0#24 ∨
      32767 < r.amplitude.toNat := by
  unfold entryWithSlot
  cases modeOf r.flags with
  | none => simp
  | some m =>
    cases triggerOf r.flags r.time with
    | none => simp
    | some g => by_cases hd : r.dwell = 0#24 <;> by_cases ha : 32767 < r.amplitude.toNat <;> simp [hd, ha]

theorem entryOf_isNone (r : RawEntry) : (entryOf r).isNone = true ↔ 48 ≤ r.slot.toNat ∨ r.dwell = 0#24 ∨
    32767 < r.amplitude.toNat ∨ r.flags.toNat % 4 = 3 ∨
    (r.flags.getLsbD 6 = true ↔ r.flags.toNat / 4 % 4 ≠ 2) := by
  rw [← slotOf_isNone, ← modeOf_isNone, ← triggerOf_isNone r.flags r.time]
  unfold entryOf
  cases slotOf r.slot with
  | none => simp
  | some i =>
    simp only [entryWithSlot_isNone, Option.isNone_some, Bool.false_eq_true, false_or]
    tauto

/-! HOP_APPEND refused, check by check (Table 2-3). -/

/-- The first element that passes a test, behind others that do not. -/
theorem findIdx?_first {α : Type} {p : α → Bool} {before after : List α} {x : α} (hb : ∀ y ∈ before, p y = false)
    (hx : p x = true) : (before ++ x :: after).findIdx? p = some before.length := by
  rw [List.findIdx?_append, List.findIdx?_eq_none_iff.mpr hb, List.findIdx?_cons, hx]
  simp

theorem appendParsed_uncounted (h : count.toNat = 0 ∨ 8 < count.toNat) :
    appendParsed c count entries s = (s, [0x10#8, 0#8, b8 (s.chan c).queue.length]) := by
  simp only [appendParsed, h, if_true]
  rfl

theorem appendParsed_misfit (h1 : 1 ≤ count.toNat) (h8 : count.toNat ≤ 8) {i : Nat}
    (h : splitEntries count.toNat 0 entries = .error i) :
    appendParsed c count entries s = (s, [0x10#8, b8 i, b8 (s.chan c).queue.length]) := by
  have hcount : ¬(count.toNat = 0 ∨ 8 < count.toNat) := by omega
  simp only [appendParsed, hcount, if_false, h]
  rfl

theorem appendParsed_unread (h1 : 1 ≤ count.toNat) (h8 : count.toNat ≤ 8) {raws : List (List Byte)} {i : Nat}
    (h : splitEntries count.toNat 0 entries = .ok raws)
    (hi : raws.findIdx? (fun bs => (entryOf (wireEntry bs)).isNone) = some i) :
    appendParsed c count entries s = (s, [0x11#8, b8 i, b8 (s.chan c).queue.length]) := by
  have hcount : ¬(count.toNat = 0 ∨ 8 < count.toNat) := by omega
  simp only [appendParsed, hcount, if_false, h, hi]
  rfl

theorem appendChecked_full (h : (s.chan c).room < es.length) :
    appendChecked c es s = (s, [0x22#8, b8 (s.chan c).room, b8 (s.chan c).queue.length]) := by
  simp only [appendChecked, h, if_true]
  rfl

theorem appendChecked_empty {before after : List HopEntry} (hes : es = before ++ q :: after)
    (hroom : es.length ≤ (s.chan c).room) (hb : ∀ x ∈ before, (s.slot x.slot).tone.isSome = true)
    (hq : (s.slot q.slot).tone = none) :
    appendChecked c es s = (s, [0x21#8, b8 before.length, b8 (s.chan c).queue.length]) := by
  have hi : es.findIdx? (fun e => (s.slot e.slot).tone.isNone) = some before.length := by
    rw [hes]
    exact findIdx?_first (fun x hx => by simpa [Option.isNone_eq_false_iff] using hb x hx) (by rw [hq]; rfl)
  simp only [appendChecked, Nat.not_lt.mpr hroom, if_false, hi]
  rfl

theorem appendChecked_short {before after : List HopEntry} (hes : es = before ++ q :: after)
    (hroom : es.length ≤ (s.chan c).room) (hall : ∀ x ∈ es, (s.slot x.slot).tone.isSome = true)
    (hb : ∀ x ∈ before, x.blank = true → (s.chan c).cfg.ramp < x.dwell.toNat) (hq : q.blank = true)
    (hd : q.dwell.toNat ≤ (s.chan c).cfg.ramp) :
    appendChecked c es s = (s, [0x23#8, b8 before.length, b8 (s.chan c).queue.length]) := by
  have hnone : es.findIdx? (fun e => (s.slot e.slot).tone.isNone) = none :=
    List.findIdx?_eq_none_iff.mpr fun x hx => by simpa [Option.isNone_eq_false_iff] using hall x hx
  have hi : es.findIdx? (dwellShort (s.chan c).cfg.ramp) = some before.length := by
    rw [hes]
    exact findIdx?_first (fun x hx => dwellShort_false (hb x hx)) ((dwellShort_iff _ _).mpr ⟨hq, hd⟩)
  simp only [appendChecked, Nat.not_lt.mpr hroom, if_false, hnone, hi]
  rfl

theorem opHopAppend_parsed (hc : chanOf channel = some c) (hst : (s.chan c).st ≠ .loading) :
    opHopAppend channel count entries s = appendParsed c count entries s := by
  simp only [opHopAppend, hc, hst, if_false]

/-! QUEUE_GET (R37). -/

theorem opQueueGet_bad {first : Byte}
    (h : chanOf channel = none ∨ 63 < first.toNat ∨ count.toNat = 0 ∨ 8 < count.toNat) :
    opQueueGet channel first count s = (s, [0x11#8]) := by
  unfold opQueueGet
  cases hc : chanOf channel with
  | none => rfl
  | some c =>
    simp only [hc, reduceCtorEq, false_or] at h
    simp only [h, if_true]
    rfl

theorem opQueueGet_reads {first : Byte} (hc : chanOf channel = some c) (hf : first.toNat ≤ 63) (h1 : 1 ≤ count.toNat)
    (h8 : count.toNat ≤ 8) : opQueueGet channel first count s = (s, 0x00#8 :: b8 (s.chan c).queue.length ::
      b8 (min count.toNat ((s.chan c).queue.length - first.toNat)) ::
      (((s.chan c).queue.drop first.toNat).take count.toNat).flatMap encodeEntry) := by
  have hin : ¬(63 < first.toNat ∨ count.toNat = 0 ∨ 8 < count.toNat) := by omega
  simp only [opQueueGet, hc, hin, if_false, List.length_take, List.length_drop]
  rfl

end Sys2Proof.Machine

open Sys2Proof.Machine

/-- Settles O21: an encoded entry is a whole one, and is read back by its fields. -/
theorem hopEntryRoundTrip : Obligations.HopEntryRoundTrip := fun e rest he =>
  ⟨encodeEntry_length e, entryOf_encode he, fun n i => splitEntries_whole (encodeEntry_whole e) rest n i⟩

/-- Settles O23: the checks of Table 2-3 in their order. -/
theorem hopAppendRefused : Obligations.HopAppendRefused := by
  intro s r channel count entries ht e answers
  have refused {body : List Byte} (ho : opHopAppend channel count entries e = (e, body)) : answers body :=
    congrArg _ (request_answers ht ho)
  refine ⟨fun hc => refused (by rw [opHopAppend, hc]; rfl), ?_⟩
  intro c hc length coded whole bad
  refine ⟨fun hst => refused (by simp only [opHopAppend, hc, hst, if_true]; rfl), fun hst => ?_⟩
  have parsed {body : List Byte} (ho : appendParsed c count entries e = (e, body)) : answers body :=
    refused ((opHopAppend_parsed hc hst).trans ho)
  refine ⟨fun hn => parsed (appendParsed_uncounted hn), fun raws tail h1 h8 hw hes => ⟨fun hlt hcut => ?_,
    fun hlen hne => ?_⟩, fun before raw after hn h8 hw hes hb hbad => ?_, fun es hn h1 h8 hr hes => ?_⟩
  · obtain ⟨n, hn⟩ := Nat.exists_eq_add_of_lt hlt
    refine parsed (appendParsed_misfit h1 h8 ?_)
    rw [hn, hes, Nat.add_assoc, splitEntries_wholes hw, splitEntries_cut hcut, Nat.zero_add]
    rfl
  · refine parsed (appendParsed_misfit h1 h8 ?_)
    rw [← hlen, hes, ← Nat.add_zero raws.length, splitEntries_wholes hw, splitEntries_over hne, Nat.zero_add]
    rfl
  · have hlen : count.toNat = (before ++ raw :: after).length := by simp; omega
    have hsplit : splitEntries count.toNat 0 entries = .ok (before ++ raw :: after) := by
      have := splitEntries_wholes hw [] 0 0
      rwa [List.append_nil, Nat.add_zero, ← hlen, ← hes, splitEntries, List.isEmpty_nil, if_pos rfl, Except.map,
        List.append_nil] at this
    refine parsed (appendParsed_unread (by omega) h8 hsplit
      (findIdx?_first (fun x hx => ?_) ((entryOf_isNone _).mpr hbad)))
    exact Bool.eq_false_iff.mpr fun h => hb x hx ((entryOf_isNone _).mp h)
  · have checked {body : List Byte} (ho : appendChecked c es e = (e, body)) : answers body :=
      parsed (by rw [hn, hes, appendParsed_taken h1 h8 hr, ho])
    exact ⟨fun hfull => checked (appendChecked_full hfull), fun hroom before q after hq =>
      ⟨fun hb h0 => checked (appendChecked_empty hq hroom hb h0),
        fun hall hb h0 hd => checked (appendChecked_short hq hroom hall hb h0 hd)⟩⟩

/-- Settles O25. -/
theorem queueGetReads : Obligations.QueueGetReads := by
  intro s r channel first count ht e
  have answers {body : List Byte} (ho : opQueueGet channel first count e = (e, body)) :
      exec (.queueGet r channel first count) s = .next (e.replied r .queueGet [channel, first, count] body) :=
    congrArg _ (request_answers ht ho)
  exact ⟨fun h => answers (opQueueGet_bad h), fun c hc hf h1 h8 => answers (opQueueGet_reads hc hf h1 h8)⟩

end

section
/-! GATE_ARRIVAL and PAIR_TIMER_EXPIRY, and the pair start that a dwell expiry brings, as the obligations state them. -/

open Sys2Proof

namespace Sys2Proof.Machine

variable {s t u v w : State} {c : Chan} {hop other : HopEntry} {rest others : List HopEntry}

/-! The gate's arrival (R94, R97). -/

/-- A gate that takes another state reports it (R103). -/
theorem moveGate_new {g : Gate} (h : g.st ≠ (s.chan c).gate.st) : s.moveGate c g =
    { s.setGate c g with reports := s.reports.make (.gateState c g.st g.hold) } := by
  rw [State.moveGate, if_neg h, State.report, State.setGate_reports]

theorem gateArrive_open (h : (s.chan c).gate.st = .opening) : s.gateArrive c =
    { s.setGate c { (s.chan c).gate with st := .opened } with
      reports := s.reports.make (.gateState c .opened (s.chan c).gate.hold) } := by
  simp only [State.gateArrive, h]
  exact moveGate_new (by rw [h]; simp)

/-- The gate is CLOSED with its report, before its hop engine hears of it (R94, R97). -/
def State.gateShut (s : State) (c : Chan) : State :=
  { s.setGate c { (s.chan c).gate with st := .closed } with
    reports := s.reports.make (.gateState c .closed (s.chan c).gate.hold) }

theorem gateShut_chan (s : State) (c : Chan) :
    (s.gateShut c).chan c = { s.chan c with gate := { (s.chan c).gate with st := .closed } } := by
  cases c <;> rfl

theorem gateArrive_shut (h : (s.chan c).gate.st = .closing) : s.gateArrive c = (s.gateShut c).gateReportsClosed c := by
  simp only [State.gateArrive, h]
  rw [moveGate_new (by rw [h]; simp)]
  rfl

theorem gateReportsClosed_quiet (h1 : (s.chan c).st ≠ .switching) (h2 : (s.chan c).st.isEnding = false) :
    s.gateReportsClosed c = s := by
  unfold State.gateReportsClosed
  split
  · rename_i h; exact absurd h h1
  · rename_i h; simp [h, ChanState.isEnding] at h2
  · rfl

theorem gateReportsClosed_switching (h : (s.chan c).st = .switching) : s.gateReportsClosed c = s.switchClosed c := by
  simp only [State.gateReportsClosed, h]

theorem gateReportsClosed_ending {dest : EndDest} (h : (s.chan c).st = .ending dest) :
    s.gateReportsClosed c = s.endingComplete c dest := by
  simp only [State.gateReportsClosed, h]

theorem switchClosed_start (ho : (s.chan c).offers hop rest) (hp : hop.trigger ≠ .paired) :
    s.switchClosed c = s.hopStart c := by
  simp only [State.switchClosed, offered_of_offers ho, hp, if_false]

theorem switchClosed_ready (ho : (s.chan c).offers hop rest) (hp : hop.trigger = .paired) :
    s.switchClosed c = s.becomeReady c := by
  simp only [State.switchClosed, offered_of_offers ho, hp, if_true]

/-! The expiry of the pair timer (R82, R83). -/

theorem pairExpiryDue_iff (ch : Channel) : ch.pairExpiryDue = true ↔ ch.ready = true ∧ ch.timer = some 0 := by
  simp [Channel.pairExpiryDue]

/-- A state that a channel is not in yet is reported (R45). -/
theorem enter_new {st : ChanState} (h : (s.chan c).st ≠ st) : s.enter c st =
    { s.setChan c { s.chan c with st := st } with reports := s.reports.make (.channelState c st) } := by
  rw [State.enter, if_neg h, State.report, State.setChan_reports]

/-- The skipped head leaves the queue behind it, and the readiness ends (R80, R82). -/
theorem withdraw_skipHead (ho : (s.chan c).offers hop rest) : (s.withdraw c).skipHead c =
    { s.setChan c { s.chan c with queue := rest, ready := false, timer := none } with
      slots := ((s.withdraw c).skipHead c).slots } := by
  rcases ho with ⟨h1, h2⟩ | ⟨h1, -, h3⟩
  · simp only [State.skipHead, State.withdraw, State.setChan_chan_same, h1, h2, Bool.false_eq_true, if_false,
      List.head?_cons, Option.map_some, State.unpinOpt, List.tail_cons]
    cases c <;> rfl
  · simp only [State.skipHead, State.withdraw, State.setChan_chan_same, h1, if_true, h3]

/-- The state in which what follows the skipped head is evaluated, whole (R82, R83). -/
theorem headSkipped_eq (ho : (s.chan c).offers hop rest) : s.headSkipped c =
    { s.setChan c ((s.chan c).skipped rest) with
      slots := (s.headSkipped c).slots
      reports := if (s.chan c).st = .switching
        then (s.reports.make (.pairTimeout c hop.tag)).make (.channelState c .overstay)
        else s.reports.make (.pairTimeout c hop.tag) } := by
  unfold State.headSkipped
  rw [withdraw_skipHead ho, offered_of_offers ho]
  by_cases hst : (s.chan c).st = .switching
  · simp only [hst, beq_self_eq_true, if_true, Channel.skipped]
    rw [enter_new (by cases c <;> simp_all [State.chan, State.setChan, State.report])]
    cases c <;> rfl
  · simp only [beq_eq_false_iff_ne.mpr hst, Bool.false_eq_true, if_false, hst, Channel.skipped]
    cases c <;> rfl

/-- A queue entry left as the head is evaluated as one (R25, R51). -/
theorem evaluate_queued (hq : (s.chan c).queue = hop :: rest) (kept : Bool) :
    Evaluated (s.setChan c { s.chan c with selfHead := false }) (s.evaluate c kept) c hop rest kept := by
  have hof : s.offerHead c = s.setChan c { s.chan c with selfHead := false } := by simp [State.offerHead, hq]
  have ho : ((s.offerHead c).chan c).offers hop rest := by rw [hof, State.setChan_chan_same]; exact .inl ⟨rfl, hq⟩
  rw [← hof]
  exact evaluate_evaluated kept ho

/-! The pair start (R78). -/

/-- A channel that has started `hop` and has `queue` behind it (R46, R80). -/
structure Channel.Playing (y : Channel) (hop : HopEntry) (queue : List HopEntry) : Prop where
  st : y.st = .dwell
  cur : y.cur = some hop
  queue : y.queue = queue
  ready : y.ready = false
  timer : y.timer = none
  dwell : y.dwell = hop.dwell.toNat

theorem started_playing (h : Started s t c hop rest) (hc : (s.chan c).cfg.cycle = false) :
    (t.chan c).Playing hop rest := by
  obtain ⟨h1, h2, h3, h4, h5, h6, -⟩ := h
  exact ⟨h1, h2, by rw [h3]; simp [hc], h5, h6, h4⟩

theorem started_other (h : Started s t c hop rest) : t.chan (chanOther c) = s.chan (chanOther c) := by
  obtain ⟨-, -, -, -, -, -, -, -, -, -, -, -, -, -, -, h, -⟩ := h
  exact h

theorem started_epoch (h : Started s t c hop rest) : t.epoch = s.epoch := by
  obtain ⟨-, -, -, -, -, -, -, -, -, -, -, -, -, -, -, -, -, h, -⟩ := h
  exact h

/-- Outside cycle mode the two starts of a pair leave both channels playing. -/
theorem pairStarted_playing {hopA hopB : HopEntry} {restA restB : List HopEntry}
    (hA : Started v.settleEpoch u .A hopA restA) (hB : Started u t .B hopB restB)
    (hc : ∀ d, (v.chan d).cfg.cycle = false) :
    (t.chan .A).Playing hopA restA ∧ (t.chan .B).Playing hopB restB ∧ t.epoch = v.settleEpoch.epoch := by
  have hcycle (d : Chan) : (v.settleEpoch.chan d).cfg.cycle = false := by
    rw [(settleEpoch_kept v).2.2.2.2 d]; exact hc d
  have htA : t.chan .A = u.chan .A := started_other hB
  have huB : u.chan .B = v.settleEpoch.chan .B := started_other hA
  refine ⟨?_, started_playing hB (by rw [huB]; exact hcycle .B), (started_epoch hB).trans (started_epoch hA)⟩
  rw [htA]
  exact started_playing hA (hcycle .A)

/-- A channel that becomes ready beside a ready partner starts with it (R75, R78). -/
theorem readied_playing (h : Readied s t c) (hr : (s.chan c).ready = false)
    (hp : (s.chan (chanOther c)).ready = true) (ho : (s.chan c).offers hop rest)
    (ho' : (s.chan (chanOther c)).offers other others) (hc : (s.chan c).cfg.cycle = false)
    (hc' : (s.chan (chanOther c)).cfg.cycle = false) :
    (t.chan c).Playing hop rest ∧ (t.chan (chanOther c)).Playing other others ∧
      t.epoch = s.settleEpoch.epoch := by
  obtain ⟨-, -, hpair⟩ := h
  replace hpair := hpair hr hp
  generalize hv : s.setChan c _ = v at hpair
  have hown : (v.chan c).offers hop rest ∧ (v.chan c).cfg.cycle = false := by
    rw [← hv, State.setChan_chan_same]
    exact ⟨offers_congr ho rfl rfl rfl, hc⟩
  have hother : (v.chan (chanOther c)).offers other others ∧ (v.chan (chanOther c)).cfg.cycle = false := by
    rw [← hv, State.setChan_chan_other]
    exact ⟨ho', hc'⟩
  have hepoch : v.settleEpoch.epoch = s.settleEpoch.epoch := settleEpoch_epoch_congr (by simp [← hv])
  have hcycle : ∀ d, (v.chan d).cfg.cycle = false := chan_cases c hown.2 hother.2
  cases c with
  | A =>
    obtain ⟨u, hA, hB⟩ := hpair hop rest other others hown.1 hother.1
    obtain ⟨h1, h2, h3⟩ := pairStarted_playing hA hB hcycle
    exact ⟨h1, h2, h3.trans hepoch⟩
  | B =>
    obtain ⟨u, hA, hB⟩ := hpair other others hop rest hother.1 hown.1
    obtain ⟨h1, h2, h3⟩ := pairStarted_playing hA hB hcycle
    exact ⟨h2, h1, h3.trans hepoch⟩

/-- A wait changes the state of its channel alone, and the reports (R45, R51). -/
theorem waited_kept (h : Waited s w c) : w.chan c = { s.chan c with st := (w.chan c).st } ∧
    w.chan (chanOther c) = s.chan (chanOther c) ∧ w.epoch = s.epoch := by
  unfold Waited at h
  subst h
  split <;> cases c <;> exact ⟨rfl, rfl, rfl⟩

/-- A dwell that expires onto a PAIRED head that is not blank, with the partner ready, starts the pair (R54, R75,
R78). -/
theorem expire_pair (hs : (s.chan c).stopAtEnd = false) (hr : (s.chan c).ready = false)
    (hq : (s.chan c).queue = hop :: rest) (ht : hop.trigger = .paired) (hb : hop.blank = false)
    (hp : (s.chan (chanOther c)).ready = true) (ho' : (s.chan (chanOther c)).offers other others)
    (hc : (s.chan c).cfg.cycle = false) (hc' : (s.chan (chanOther c)).cfg.cycle = false) :
    ((s.expire c).chan c).Playing hop rest ∧ ((s.expire c).chan (chanOther c)).Playing other others ∧
      (s.expire c).epoch = s.settleEpoch.epoch := by
  have hev := (afterRemoval_removed s c false).2 hop rest (by
    rw [State.setChan_chan_same]; exact .inl ⟨by simp [hq], hq⟩)
  rw [← expire_go hs] at hev
  obtain ⟨-, -, -, hpaired⟩ := hev
  obtain ⟨w, hw, hready⟩ := (hpaired ht).2 (.inl hb)
  obtain ⟨h1, h2, h3⟩ := waited_kept hw
  rw [State.setChan_chan_same] at h1
  rw [State.setChan_chan_other] at h2
  rw [State.setChan_epoch] at h3
  obtain ⟨g1, g2, g3⟩ := readied_playing hready (by rw [h1]; exact hr) (by rw [h2]; exact hp)
    (by rw [h1]; exact .inl ⟨by simp [hq], hq⟩) (by rw [h2]; exact ho') (by rw [h1]; exact hc) (by rw [h2]; exact hc')
  exact ⟨g1, g2, g3.trans (settleEpoch_epoch_congr h3)⟩

end Sys2Proof.Machine

open Sys2Proof.Machine

/-- Settles O45: the gate that arrives at 0 is CLOSED first, and then its channel's state says what follows. -/
theorem gateArrivals : Obligations.GateArrivals := by
  intro s c
  have hm := (EngineMoves.refl s).gateArrive c
  have arrives (h : (s.chan c).gate.arrived = true) : exec (.gateArrival c) s = .next (s.gateArrive c).finish :=
    congrArg _ (takeIf_due h _)
  refine ⟨fun h => congrArg _ (takeIf_undue h _), fun hst hg => ?_, fun hst hg => ?_⟩
  · rw [arrives (by simp [Gate.arrived, hst, hg, Config.fullGain]), gateArrive_open hst]
  intro shut
  have hx := arrives (by simp [Gate.arrived, hst, hg])
  have hch : shut.chan c = { s.chan c with gate := { (s.chan c).gate with st := .closed } } := gateShut_chan s c
  have hshut : s.gateArrive c = shut.gateReportsClosed c := gateArrive_shut hst
  refine ⟨fun h1 h2 => ?_, fun hop rest hsw ho => ⟨_, hx, fun hp => ?_, fun hp => ?_⟩,
    fun dest he => ⟨_, hx, ?_, hm.store, hm.loader, hm.link⟩⟩
  · rw [hx, hshut, gateReportsClosed_quiet (by rw [hch]; exact h1) (by rw [hch]; exact h2)]
  · have ho' : (shut.chan c).offers hop rest := by rw [hch]; exact offers_congr ho rfl rfl rfl
    rw [hshut, gateReportsClosed_switching (by rw [hch]; exact hsw), switchClosed_start ho' hp]
    exact hopStart_started ho'
  · have ho' : (shut.chan c).offers hop rest := by rw [hch]; exact offers_congr ho rfl rfl rfl
    rw [hshut, gateReportsClosed_switching (by rw [hch]; exact hsw), switchClosed_ready ho' hp]
    exact becomeReady_readied shut c
  · have he' : (shut.chan c).st = .ending dest := by rw [hch]; exact he
    rw [hshut, gateReportsClosed_ending he']
    exact endingComplete_done (by rw [hch]) he'

/-- Settles O44: the head is skipped, what stands behind it is evaluated, and BLANK leaves last. -/
theorem pairUnitActs : Obligations.PairUnitActs := by
  refine ⟨fun s c h => ?_, fun s c hop rest hr ht ho => ?_,
    fun s c hop other rest others hd hs hr hq ht hb hp hself hq' ht' hc hc' => ?_⟩
  · have hd : (s.chan c).pairExpiryDue = false := by
      rw [Bool.eq_false_iff, Ne, pairExpiryDue_iff]
      rintro ⟨h1, h2⟩
      rcases h with h | h
      exacts [by simp [h] at h1, h h2]
    exact congrArg _ (takeIf_undue hd _)
  · intro x skipped
    have hm := (EngineMoves.refl s).pairExpire c
    have hx : exec (.pairTimerExpiry c) s = .next (s.pairExpire c).finish :=
      congrArg _ (takeIf_due ((pairExpiryDue_iff _).mpr ⟨hr, ht⟩) _)
    obtain ⟨hown, -, hslot⟩ := headSkipped_chan ho
    have hcur : ((s.headSkipped c).chan c).cur = x.cur := by rw [hown]; rfl
    have hqueue : ((s.headSkipped c).chan c).queue = rest := by rw [hown]; rfl
    refine ⟨s.headSkipped c, _, _, hx, hm.store, hm.loader, hm.link, hslot, headSkipped_eq ho, fun h => ?_,
      fun h hrest => ?_, fun h next more hrest => ?_, pairExpire_eq s c ▸ dropBlank_dropped _ c⟩
    · rw [hcur, if_pos h]
      exact afterRemoval_removed _ c _
    · rw [hcur, h, hqueue, hrest]; rfl
    · rw [hcur, h, hqueue, hrest]
      exact evaluate_queued (hqueue.trans hrest) false
  · have hm := (EngineMoves.refl s).expire c
    obtain ⟨g1, g2, g3⟩ := expire_pair hs hr hq ht hb hp (.inl ⟨hself, hq'⟩) hc hc'
    exact ⟨s.expire c, congrArg _ (takeIf_due hd _), g1.st, g1.cur, g1.queue, g1.ready, g1.timer, g1.dwell,
      g2.st, g2.cur, g2.queue, g2.ready, g2.timer, g2.dwell, g3, hm.store, hm.loader, hm.link⟩

end

section
/-! HOP_FLUSH, as its obligation states it: what a flush leaves, by channel state. -/

open Sys2Proof

namespace Sys2Proof.Machine

variable {s : State} {c : Chan} {k : LoadCtx} {old : HopEntry}

/-! A flush by channel state (R33 to R36, R69, R179). -/

theorem flush_empty (hq : (s.chan c).queue = []) (hst : (s.chan c).st ≠ .loading) : s.flush c = s := by
  simp only [State.flush, hst, if_false, hq, List.isEmpty_nil, if_true]

theorem flush_loading (hst : (s.chan c).st = .loading) : s.flush c = (s.emptyQueue c).cancelLoad := by
  simp only [State.flush, hst, if_true]

section
variable (hq : (s.chan c).queue ≠ [])
include hq

theorem flush_resting (hst : (s.chan c).st = .idle ∨ (s.chan c).st = .dwell ∨ (s.chan c).st.isEnding = true) :
    s.flush c = s.emptyQueue c := by
  unfold State.flush
  cases hs : (s.chan c).st <;> simp_all [ChanState.isEnding]

theorem flush_waiting (hst : (s.chan c).st = .waiting) : s.flush c = (s.emptyQueue c).withdraw c := by
  simp [State.flush, hst, hq]

theorem flush_overstay_own (hst : (s.chan c).st = .overstay) (hs : (s.chan c).selfHead = true) :
    s.flush c = (s.emptyQueue c).evaluate c false := by simp [State.flush, hst, hq, hs]

theorem flush_overstay_queued (hst : (s.chan c).st = .overstay) (hs : (s.chan c).selfHead = false) :
    s.flush c = (((s.emptyQueue c).withdraw c).dropCycleEdge c).afterRemoval c false := by
  simp [State.flush, hst, hq, hs]

theorem flush_switching_own (hst : (s.chan c).st = .switching) (hs : (s.chan c).selfHead = true) :
    s.flush c = s.emptyQueue c := by simp [State.flush, hst, hq, hs]

theorem flush_switching_queued (hst : (s.chan c).st = .switching) (hs : (s.chan c).selfHead = false) :
    s.flush c = ((((s.emptyQueue c).withdraw c).enter c .overstay).afterRemoval c
      (HoldSet.isEmpty { (s.chan c).gate.hold with blank := false })).dropBlank c := by
  simp [State.flush, hst, hq, hs]

end

/-! The queue emptied, whole: its channel, the pins, and the readiness or the state that goes with it. -/

theorem emptyQueue_eq (s : State) (c : Chan) : s.emptyQueue c =
    { s.setChan c { s.chan c with queue := [] } with slots := (s.emptyQueue c).slots } := by
  unfold State.emptyQueue
  rw [unpinAll_eq]
  cases c <;> rfl

theorem emptyQueue_withdraw_eq (s : State) (c : Chan) : (s.emptyQueue c).withdraw c =
    { s.setChan c { s.chan c with queue := [], ready := false, timer := none } with
      slots := ((s.emptyQueue c).withdraw c).slots } := by
  rw [emptyQueue_eq]
  cases c <;> rfl

theorem emptyQueue_dropCycleEdge_eq (s : State) (c : Chan) : ((s.emptyQueue c).withdraw c).dropCycleEdge c =
    { s.setChan c { s.chan c with queue := [], ready := false, timer := none,
                                  edgeDue := (s.chan c).edgeDue && !(s.chan c).cfg.cycle } with
      slots := (((s.emptyQueue c).withdraw c).dropCycleEdge c).slots } := by
  rw [emptyQueue_withdraw_eq]
  cases c <;> rfl

theorem emptyQueue_overstay_eq (hst : (s.chan c).st = .switching) : ((s.emptyQueue c).withdraw c).enter c .overstay =
    { s.setChan c { s.chan c with queue := [], ready := false, timer := none, st := .overstay } with
      slots := (((s.emptyQueue c).withdraw c).enter c .overstay).slots
      reports := s.reports.make (.channelState c .overstay) } := by
  rw [enter_new (by rw [(emptyQueue_withdraw_chan s c).1, hst]; simp), emptyQueue_withdraw_eq]
  cases c <;> rfl

/-- A channel that waits on its own current hop evaluates it again when its queue is emptied (R36, R38). -/
theorem emptyQueue_evaluate_own (hs : (s.chan c).selfHead = true) (hcy : (s.chan c).cfg.cycle = true)
    (hcur : (s.chan c).cur = some old) :
    Evaluated (s.emptyQueue c) ((s.emptyQueue c).evaluate c false) c old [] false := by
  obtain ⟨hch, -⟩ := emptyQueue_chan s c
  have hof : (s.emptyQueue c).offerHead c = s.emptyQueue c := by
    have hself : (((s.emptyQueue c).chan c).queue.isEmpty && ((s.emptyQueue c).chan c).cfg.cycle &&
        ((s.emptyQueue c).chan c).cur.isSome) = ((s.emptyQueue c).chan c).selfHead := by
      rw [hch]; simp [hcy, hcur, hs]
    unfold State.offerHead
    rw [hself]
    exact State.setChan_self _ c
  have ho : (((s.emptyQueue c).offerHead c).chan c).offers old [] := by rw [hof, hch]; exact .inr ⟨hs, hcur, rfl⟩
  have hev := evaluate_evaluated false ho
  rwa [hof] at hev

/-- What an emptied queue leaves unchanged, with the readiness withdrawn or not (R33, R80). -/
structure Emptied (s t : State) (c : Chan) : Prop where
  queue : (t.chan c).queue = []
  other : t.chan (chanOther c) = s.chan (chanOther c)
  slot : ∀ i, t.slot i = { s.slot i with
    pins := (s.slot i).pins - (s.chan c).queue.countP fun q => q.slot == i }
  epoch : t.epoch = s.epoch
  reports : t.reports = s.reports
  store : t.store = s.store
  loader : t.loader = s.loader
  link : t.link = s.link
  gateLine : t.gateLine = s.gateLine

theorem emptyQueue_emptied (s : State) (c : Chan) : Emptied s (s.emptyQueue c) c := by
  obtain ⟨hch, hoth⟩ := emptyQueue_chan s c
  refine ⟨by rw [hch], hoth, emptyQueue_slot s c, ?_, ?_, ?_, ?_, ?_, ?_⟩
  all_goals rw [emptyQueue_eq]; simp

theorem emptyQueue_withdraw_emptied (s : State) (c : Chan) : Emptied s ((s.emptyQueue c).withdraw c) c := by
  obtain ⟨hch, hoth⟩ := emptyQueue_withdraw_chan s c
  refine ⟨by rw [hch], hoth, fun i => ?_, ?_, ?_, ?_, ?_, ?_, ?_⟩
  · rw [State.withdraw, State.setChan_slot]; exact emptyQueue_slot s c i
  all_goals rw [emptyQueue_withdraw_eq]; simp

theorem opHopFlush_some {channel : Byte} (hc : chanOf channel = some c) :
    opHopFlush channel s = (s.flush c, [0x00#8, b8 (s.chan c).queue.length]) := by
  rw [opHopFlush, hc]
  rfl

end Sys2Proof.Machine

open Sys2Proof.Machine

/-- Settles O24, by channel state. -/
theorem hopFlushEmpties : Obligations.HopFlushEmpties := by
  intro s r channel ht e
  have answers {t : State} {body : List Byte} (ho : opHopFlush channel e = (t, body)) :
      exec (.hopFlush r channel) s = .next (t.replied r .hopFlush [channel] body) :=
    congrArg _ (request_answers ht ho)
  refine ⟨fun hc => answers (by rw [opHopFlush, hc]; rfl), ?_⟩
  intro c hc x flushed alone
  have hx {t : State} (h : e.flush c = t) :
      exec (.hopFlush r channel) s = .next (t.replied r .hopFlush [channel] [0x00#8, b8 x.queue.length]) :=
    answers (by rw [opHopFlush_some hc, h])
  have leaves {t : State} (h : e.flush c = t) (hm : Emptied e t c) : flushed t ∧ alone t :=
    ⟨⟨hx h, hm.queue, fun i => by rw [hm.slot]; exact ⟨rfl, rfl⟩, hm.store, hm.gateLine, hm.link⟩,
      hm.other, hm.epoch, hm.loader⟩
  have hempty := emptyQueue_emptied e c
  have hwithdrawn := emptyQueue_withdraw_emptied e c
  have hch := (emptyQueue_chan e c).1
  refine ⟨fun hq hst => ?_, fun hq hst => ?_, fun k hst hctx hk => ?_, fun hq hst hs => ?_, fun hq hst => ?_⟩
  · have := hx (flush_empty hq hst)
    rwa [hq] at this
  · by_cases hw : x.st = .waiting
    · obtain ⟨h1, h2⟩ := leaves (flush_waiting hq hw) hwithdrawn
      exact ⟨_, h1, h2, hwithdrawn.reports, fun i => by rw [hwithdrawn.slot],
        by rw [if_pos hw]; exact (emptyQueue_withdraw_chan e c).1⟩
    · have hrest : x.st = .idle ∨ x.st = .dwell ∨ x.st.isEnding = true := by tauto
      obtain ⟨h1, h2⟩ := leaves (flush_resting hq hrest) hempty
      exact ⟨_, h1, h2, hempty.reports, fun i => by rw [hempty.slot], by rw [if_neg hw]; exact hch⟩
  · subst hk
    have hend : LoadEnded (e.emptyQueue k.chan) (e.flush k.chan) k .cancelled 0xFF#8 := by
      rw [flush_loading hst, cancelLoad_eq (hempty.loader ▸ hctx)]
      exact failLoad_ended _ k _ _
    have hrep := hend.reports (by rw [hch]; exact hst)
    rw [hempty.reports] at hrep
    refine ⟨_, ⟨hx rfl, by rw [hend.own, hch], fun i => ?_, hend.store.trans hempty.store,
      hend.gateLine.trans hempty.gateLine, hend.link.trans hempty.link⟩, by rw [hend.own, hch],
      hend.other.trans hempty.other, hend.epoch.trans hempty.epoch, by rw [hend.loader, hempty.loader],
      fun i => by rw [hend.slot], hrep⟩
    rw [hend.slot, hempty.slot]
    exact ⟨rfl, rfl⟩
  · obtain ⟨h1, h2⟩ := leaves (flush_switching_own hq hst hs) hempty
    exact ⟨_, h1, h2, hempty.reports, hch⟩
  · rcases Bool.eq_false_or_eq_true x.selfHead with hs | hs
    · refine ⟨e.emptyQueue c, e.flush c, e.flush c, hx rfl, hempty.slot, fun hov _ old hcy hcur => ?_,
        fun _ h => by simp [hs] at h, fun _ h => by simp [hs] at h⟩
      rw [flush_overstay_own hq hov hs]
      exact ⟨emptyQueue_eq e c, emptyQueue_evaluate_own hs hcy hcur⟩
    · rcases hst with hov | hsw
      · refine ⟨((e.emptyQueue c).withdraw c).dropCycleEdge c, e.flush c, e.flush c, hx rfl, fun i => ?_,
          fun _ h => by simp [hs] at h, fun _ _ => ⟨emptyQueue_dropCycleEdge_eq e c, ?_⟩, fun h => by simp [hov] at h⟩
        · rw [State.dropCycleEdge, State.setChan_slot]; exact hwithdrawn.slot i
        · rw [flush_overstay_queued hq hov hs]
          exact afterRemoval_removed _ c false
      · refine ⟨((e.emptyQueue c).withdraw c).enter c .overstay, _, e.flush c, hx rfl, fun i => ?_,
          fun _ h => by simp [hs] at h, fun h => by simp [hsw] at h,
          fun _ _ => ⟨emptyQueue_overstay_eq hsw, afterRemoval_removed _ c _, ?_⟩⟩
        · rw [enter_slot]; exact hwithdrawn.slot i
        · rw [flush_switching_queued hq hsw hs]
          exact dropBlank_dropped _ c

end

section
/-! START, STOP, CHANNEL_CONFIG and CHANNEL_GET, as their obligations state them. -/

open Sys2Proof

namespace Sys2Proof.Machine

variable {s t : State} {c : Chan} {hop : HopEntry} {rest : List HopEntry} {channel : Byte} {now : Bool}

/-! START (R66). -/

/-- An IDLE channel with stop-at-end cleared enters WAITING with its report. -/
theorem clearStop_waiting (hst : (s.chan c).st = .idle) :
    (s.setChan c { s.chan c with stopAtEnd := false }).enter c .waiting =
      (s.setChan c { s.chan c with st := .waiting, stopAtEnd := false }).report (.channelState c .waiting) := by
  simp [State.enter, hst]

/-- With an empty queue nothing follows. -/
theorem startChannel_empty (hst : (s.chan c).st = .idle) (hq : (s.chan c).queue = []) : s.startChannel c =
    (s.setChan c { s.chan c with st := .waiting, stopAtEnd := false }).report (.channelState c .waiting) := by
  unfold State.startChannel
  rw [clearStop_waiting hst]
  simp [hq]

/-- With a head its evaluation follows, whatever its trigger. -/
theorem startChannel_head (hst : (s.chan c).st = .idle) (hq : (s.chan c).queue = hop :: rest) :
    Evaluated ((s.setChan c { s.chan c with st := .waiting, stopAtEnd := false, selfHead := false }).report
      (.channelState c .waiting)) (s.startChannel c) c hop rest false := by
  generalize hw : (s.setChan c { s.chan c with st := .waiting, stopAtEnd := false }).report
    (.channelState c .waiting) = w
  have hwq : (w.chan c).queue = hop :: rest := by simp [← hw, hq]
  have hstart : s.startChannel c = w.evaluate c false := by
    unfold State.startChannel
    rw [clearStop_waiting hst, hw]
    simp [hwq]
  have hoffer : w.setChan c { w.chan c with selfHead := false } =
      (s.setChan c { s.chan c with st := .waiting, stopAtEnd := false, selfHead := false }).report
        (.channelState c .waiting) := by
    rw [← hw]; cases c <;> rfl
  rw [hstart, ← hoffer]
  exact evaluate_queued hwq false

theorem opStart_loading (hc : chanOf channel = some c) (hst : (s.chan c).st = .loading) :
    opStart channel s = (s, [0x24#8]) := by
  simp only [opStart, hc, hst]; rfl

theorem opStart_notIdle (hc : chanOf channel = some c) (hl : (s.chan c).st ≠ .loading)
    (hi : (s.chan c).st ≠ .idle) : opStart channel s = (s, [0x25#8]) := by
  simp only [opStart, hc]
  cases hst : (s.chan c).st with
  | loading => exact absurd hst hl
  | idle => exact absurd hst hi
  | _ => rfl

theorem opStart_idle (hc : chanOf channel = some c) (hst : (s.chan c).st = .idle) : opStart channel s =
    (s.startChannel c, [0x00#8, chanStateCode ((s.startChannel c).chan c).st]) := by
  simp only [opStart, hc, hst]; rfl

/-! STOP by channel state (R67, Table 3-6). -/

theorem stopChannel_resting (hst : (s.chan c).st = .idle ∨ (s.chan c).st = .ending .idle) :
    s.stopChannel c now = s := by
  unfold State.stopChannel
  rcases hst with hst | hst <;> rw [hst]

theorem stopChannel_dwell_atEnd (hst : (s.chan c).st = .dwell) :
    s.stopChannel c false = s.setChan c { s.chan c with stopAtEnd := true } := by
  simp [State.stopChannel, hst]

theorem stopChannel_dwell_now (hst : (s.chan c).st = .dwell) : s.stopChannel c true = s.enterEnding c .idle := by
  simp [State.stopChannel, hst]

theorem stopChannel_waiting (hst : (s.chan c).st = .waiting) : s.stopChannel c now =
    (s.setChan c { s.chan c with st := .idle, ready := false, timer := none }).report (.channelState c .idle) := by
  simp [State.stopChannel, State.withdraw, State.enter, hst]

theorem stopChannel_ending (hst : (s.chan c).st = .ending .waiting) : s.stopChannel c now =
    (s.setChan c { s.chan c with st := .ending .idle }).report (.channelState c (.ending .idle)) := by
  simp [State.stopChannel, State.enter, hst]

theorem stopChannel_withdrawn (hst : (s.chan c).st = .overstay ∨ (s.chan c).st = .switching) :
    s.stopChannel c now =
      (s.setChan c { s.chan c with ready := false, timer := none }).enterEnding c .idle := by
  unfold State.stopChannel
  rcases hst with hst | hst <;> rw [hst] <;> rfl

theorem opStop_stopped (hc : chanOf channel = some c) (hst : (s.chan c).st ≠ .loading)
    (h : s.stopChannel c now = t) : opStop channel now s = (t, [0x00#8, chanStateCode (t.chan c).st]) := by
  simp only [opStop, hc, State.stopOrCancel, hst, if_false, h]; rfl

theorem opStop_loading (hc : chanOf channel = some c) (hst : (s.chan c).st = .loading) : opStop channel now s =
    (s.cancelLoad, [0x00#8, chanStateCode (s.cancelLoad.chan c).st]) := by
  simp only [opStop, hc, State.stopOrCancel, hst, if_true]; rfl

/-! CHANNEL_CONFIG (R71, R102). -/

section
variable {policy cycle edge follow : Byte} {ramp : BitVec 16} {pairTimeout : BitVec 24} {cfg : ChanConfig}

theorem policyOf_policyCode (p : Policy) : policyOf (policyCode p) = some p := by cases p <;> rfl

theorem edgeOf_edgeCode (e : EdgeKind) : edgeOf (edgeCode e) = some e := by cases e <;> rfl

theorem yesNo_boolCode (b : Bool) : yesNo (boolCode b) = some b := by cases b <;> rfl

theorem policyOf_none (h : 2 < policy.toNat) : policyOf policy = none := by
  unfold policyOf
  rw [if_neg, if_neg, if_neg] <;> rintro rfl <;> simp at h

theorem edgeOf_none (h : 2 < edge.toNat) : edgeOf edge = none := by
  unfold edgeOf
  rw [if_neg, if_neg, if_neg] <;> rintro rfl <;> simp at h

theorem yesNo_none {b : Byte} (h : 1 < b.toNat) : yesNo b = none := by
  unfold yesNo
  rw [if_neg, if_neg] <;> rintro rfl <;> simp at h

/-- A field out of its range in Table 3-8 leaves no configuration. -/
theorem configOf_none (h : 2 < policy.toNat ∨ 1 < cycle.toNat ∨ 2 < edge.toNat ∨ 1023 < ramp.toNat ∨
    1 < follow.toNat) : configOf policy cycle edge ramp follow pairTimeout = none := by
  unfold configOf
  split
  · rename_i hp hcy he hf
    rcases h with h | h | h | h | h
    · simp [policyOf_none h] at hp
    · simp [yesNo_none h] at hcy
    · simp [edgeOf_none h] at he
    · exact if_pos h
    · simp [yesNo_none h] at hf
  · rfl

/-- A configuration is read back from its codes. -/
theorem configOf_codes (pol : Policy) (cy : Bool) (ed : EdgeKind) (fo : Bool) (h : ramp.toNat ≤ 1023) :
    configOf (policyCode pol) (boolCode cy) (edgeCode ed) ramp (boolCode fo) pairTimeout =
      some { policy := pol, cycle := cy, edge := ed, ramp := ramp.toNat, follow := fo,
             pairTimeout := pairTimeout.toNat } := by
  simp only [configOf, policyOf_policyCode, yesNo_boolCode, edgeOf_edgeCode, Nat.not_lt.mpr h, if_false]

theorem opChannelConfig_loading (hc : chanOf channel = some c) (hst : (s.chan c).st = .loading) :
    opChannelConfig channel policy cycle edge ramp follow pairTimeout s = (s, [0x24#8]) := by
  simp only [opChannelConfig, hc, hst, if_true]; rfl

theorem opChannelConfig_notIdle (hc : chanOf channel = some c) (hl : (s.chan c).st ≠ .loading)
    (h : (s.chan c).st ≠ .idle ∨ (s.chan c).queue ≠ []) :
    opChannelConfig channel policy cycle edge ramp follow pairTimeout s = (s, [0x25#8]) := by
  have hbusy : (s.chan c).st ≠ .idle ∨ (s.chan c).queue.isEmpty = false := by simpa using h
  simp only [opChannelConfig, hc, hl, if_false, if_pos hbusy]; rfl

/-- On an IDLE channel with an empty queue the fields decide. -/
theorem opChannelConfig_idle (hc : chanOf channel = some c) (hst : (s.chan c).st = .idle)
    (hq : (s.chan c).queue = []) : opChannelConfig channel policy cycle edge ramp follow pairTimeout s =
      (configOf policy cycle edge ramp follow pairTimeout).elim (s, [0x11#8])
        fun cfg => (s.configure c cfg, [0x00#8]) := by
  have hl : (s.chan c).st ≠ .loading := by simp [hst]
  have hfree : ¬((s.chan c).st ≠ .idle ∨ (s.chan c).queue.isEmpty = false) := by simp [hst, hq]
  simp only [opChannelConfig, hc, if_neg hl, if_neg hfree]
  cases configOf policy cycle edge ramp follow pairTimeout <;> rfl

/-- A gate that a reason held and a reason still holds keeps its state and gain (R88). -/
theorem gate_move_held {g : Gate} {ramp : Nat} {h : HoldSet} (hg : g.hold.isEmpty = false)
    (hh : h.isEmpty = false) : g.move ramp h = { g with hold := h, periodGain := min g.periodGain g.gain } := by
  simp [Gate.move, hg, hh]

/-- Under NO_HOP an IDLE channel takes a configuration and the LINE reason it gives, and its gate does not move
(R71, R88, R102). -/
theorem configure_noHop (hst : (s.chan c).st = .idle) (hn : (s.chan c).gate.hold.noHop = true) :
    s.configure c cfg = s.setChan c { s.chan c with
      cfg := cfg
      gate := { (s.chan c).gate with
        hold := { (s.chan c).gate.hold with line := cfg.follow && s.gateLine }
        periodGain := min (s.chan c).gate.periodGain (s.chan c).gate.gain } } := by
  unfold State.configure
  dsimp only
  rw [changeHold_idle (by rw [State.setChan_chan_same]; exact hst)]
  simp only [State.applyHold, State.setChan_chan_same]
  rw [gate_move_held (by simp [HoldSet.isEmpty, hn]) (by simp [HoldSet.isEmpty, hn])]
  simp [State.moveGate, State.setGate]

end

end Sys2Proof.Machine

open Sys2Proof.Machine

/-- Settles O26, by channel state. -/
theorem startTaken : Obligations.StartTaken := by
  intro s r channel ht e
  have answers {t : State} {body : List Byte} (ho : opStart channel e = (t, body)) :
      exec (.start r channel) s = .next (t.replied r .start [channel] body) := congrArg _ (request_answers ht ho)
  refine ⟨fun hc => answers (by rw [opStart, hc]; rfl), fun c hc => ⟨fun hst => answers (opStart_loading hc hst),
    fun hl hi => answers (opStart_notIdle hc hl hi), fun hst hq => ?_, fun hop rest hst hq => ?_⟩⟩
  · have ho := answers (opStart_idle hc hst)
    rw [startChannel_empty hst hq, State.report_chan, State.setChan_chan_same] at ho
    exact ⟨_, ho, by simp, by simp, by simp, by simp, by simp, by simp, by simp, by simp⟩
  · have hm := (EngineMoves.refl e).startChannel c
    exact ⟨_, answers (opStart_idle hc hst), hm.store, hm.loader, hm.link, startChannel_head hst hq⟩

/-- Settles O27, by channel state. -/
theorem stopByState : Obligations.StopByState := by
  intro s r channel now i p ht e
  have answers {t : State} {body : List Byte} (ho : opStop channel now e = (t, body)) :
      exec i s = .next (t.replied r .stop p body) := by
    cases now <;> exact congrArg _ (request_answers ht ho)
  refine ⟨fun hc => answers (by rw [opStop, hc]; rfl), fun c hc => ?_⟩
  have stopped {t : State} {code : Byte} (hl : (e.chan c).st ≠ .loading) (h : e.stopChannel c now = t)
      (hcode : chanStateCode (t.chan c).st = code) : exec i s = .next (t.replied r .stop p [0x00#8, code]) :=
    hcode ▸ answers (opStop_stopped hc hl h)
  refine ⟨fun hst => ?_, fun hst => ?_, fun hst hn => ?_, fun hst => ?_, fun hst => ?_, fun hst => ?_,
    fun k hst hctx hk => ?_⟩
  · exact stopped (by simp [hst]) (stopChannel_resting (.inl hst)) (by rw [hst]; rfl)
  · exact stopped (by simp [hst]) (stopChannel_resting (.inr hst)) (by rw [hst]; rfl)
  · subst hn
    exact ⟨_, stopped (by simp [hst]) (stopChannel_dwell_atEnd hst) (by rw [State.setChan_chan_same, hst]; rfl),
      rfl⟩
  · exact ⟨_, stopped (by simp [hst]) (stopChannel_waiting hst)
      (by rw [State.report_chan, State.setChan_chan_same]; rfl), by simp, by simp, by simp, by simp⟩
  · exact ⟨_, stopped (by simp [hst]) (stopChannel_ending hst)
      (by rw [State.report_chan, State.setChan_chan_same]; rfl), by simp, by simp, by simp, by simp⟩
  · have hm := (EngineMoves.refl e).stopChannel c now
    have hl : (e.chan c).st ≠ .loading := by rcases hst with ⟨h, -⟩ | h | h <;> simp [h]
    refine ⟨_, stopped hl rfl rfl, hm.store, hm.loader, hm.link, ?_⟩
    rcases hst with ⟨hst, hn⟩ | hst
    · subst hn
      rw [if_pos hst, stopChannel_dwell_now hst]
      exact enterEnding_entered e c .idle
    · rw [if_neg (by rcases hst with h | h <;> simp [h]), stopChannel_withdrawn hst]
      exact enterEnding_entered _ c .idle
  · subst hk
    have hend : LoadEnded e e.cancelLoad k .cancelled 0xFF#8 := by
      rw [cancelLoad_eq hctx]; exact failLoad_ended e k _ _
    have ho := answers (opStop_loading hc hst)
    rw [hend.own] at ho
    exact ⟨_, ho, hend.own, hend.other, hend.loader, hend.store, hend.slot, hend.reports hst⟩

/-- Settles O28, check by check. -/
theorem channelConfigTaken : Obligations.ChannelConfigTaken := by
  intro s r channel policy cycle edge ramp follow pairTimeout i p ht e
  have answers {t : State} {body : List Byte}
      (ho : opChannelConfig channel policy cycle edge ramp follow pairTimeout e = (t, body)) :
      exec i s = .next (t.replied r .channelConfig p body) := congrArg _ (request_answers ht ho)
  refine ⟨fun hc => answers (by rw [opChannelConfig, hc]; rfl), fun c hc =>
    ⟨fun hst => answers (opChannelConfig_loading hc hst), fun hl h => answers (opChannelConfig_notIdle hc hl h),
      fun hst hq hbad => answers (by rw [opChannelConfig_idle hc hst hq, configOf_none hbad]; rfl), ?_⟩⟩
  rintro pol cy ed fo rfl rfl rfl hramp rfl hst hq hg hn
  refine ⟨_, answers (by rw [opChannelConfig_idle hc hst hq, configOf_codes pol cy ed fo hramp]; rfl), ?_⟩
  rw [configure_noHop hst hn]
  simp [hst, hq, hg]

/-- Settles O29, by the form of the pair wait and of the current hop. -/
theorem channelGetReads : Obligations.ChannelGetReads := by
  intro s r channel ht e
  have answers {body : List Byte} (ho : opChannelGet channel e = (e, body)) :
      exec (.channelGet r channel) s = .next (e.replied r .channelGet [channel] body) :=
    congrArg _ (request_answers ht ho)
  refine ⟨fun hc => answers (by rw [opChannelGet, hc]; rfl), fun c hc => answers ?_⟩
  rw [opChannelGet, hc]
  refine congrArg (Prod.mk e) ?_
  generalize e.chan c = x
  unfold channelBody pairWaitBytes
  rw [List.append_assoc _ [boolCode x.cur.isSome]]
  cases x.ready <;> cases x.timer <;> cases x.cur <;> rfl

end

section
/-! GATE, as its obligation states it. -/

open Sys2Proof

namespace Sys2Proof.Machine

variable {s t : State} {c : Chan} {h : HoldSet} {channel : Byte} {hold : Bool}

/-- HOLD leaves a reason. -/
@[simp] theorem HoldSet.isEmpty_hold (h : HoldSet) : ({ h with host := true } : HoldSet).isEmpty = false := by
  simp [HoldSet.isEmpty]

/-- RELEASE leaves an empty hold set empty. -/
theorem HoldSet.isEmpty_release (he : h.isEmpty = true) : ({ h with host := false } : HoldSet).isEmpty = true := by
  simp_all [HoldSet.isEmpty]

/-- RELEASE empties no hold set but that of HOST alone. -/
theorem HoldSet.hostAlone_of_release (hh : h.isEmpty = false)
    (he : ({ h with host := false } : HoldSet).isEmpty = true) :
    h = { host := true, line := false, blank := false, ending := false, noHop := false } := by
  cases h
  simp_all [HoldSet.isEmpty]

/-- A change from no reason to no reason closes no gate, so the hop engine is told nothing (R88, R97). -/
theorem changeHold_empty (hh : (s.chan c).gate.hold.isEmpty = true) (he : h.isEmpty = true) :
    s.changeHold c h = s.applyHold c h := by
  have hclosed : (s.applyHold c h).gateClosed c = s.gateClosed c := by
    simp [State.gateClosed, applyHold_chan, Gate.move, hh, he]
  unfold State.changeHold
  simp [hh, hclosed]

/-- A change of the hold set changes the gate of its channel alone, and makes the report of its move (R103). -/
theorem applyHold_frame (s : State) (c : Chan) (h : HoldSet) :
    { (s.applyHold c h).chan c with gate := (s.chan c).gate } = s.chan c ∧
    (s.applyHold c h).chan (chanOther c) = s.chan (chanOther c) ∧ (s.applyHold c h).slots = s.slots ∧
    (s.applyHold c h).epoch = s.epoch ∧ (s.applyHold c h).store = s.store ∧
    (s.applyHold c h).loader = s.loader ∧ (s.applyHold c h).link = s.link ∧
    (s.applyHold c h).reports = (if ((s.applyHold c h).chan c).gate.st = (s.chan c).gate.st then s.reports
      else s.reports.make (.gateState c ((s.applyHold c h).chan c).gate.st ((s.applyHold c h).chan c).gate.hold)) := by
  rw [applyHold_reports, applyHold_chan, applyHold_other]
  simp

/-- A gate that gains HOST (R92, R95). -/
theorem gateLeft_hold {ramp : Nat} {g g' : Gate} (hl : GateLeft ramp g { g.hold with host := true } g') :
    g'.st = (if g.hold.isEmpty = false then g.st
      else if ramp = 0 ∨ g.gain = 0 then .closed else .closing) ∧
    g'.gain = (if g.hold.isEmpty = true ∧ ramp = 0 then 0 else g.gain) := by
  obtain ⟨-, -, hsame, hshut, -⟩ := hl
  cases hh : g.hold.isEmpty with
  | true => simpa using hshut hh (HoldSet.isEmpty_hold _)
  | false => simpa using hsame (hh.trans (HoldSet.isEmpty_hold _).symm)

/-- A gate that loses HOST (R92, R93, R95). -/
theorem gateLeft_release {ramp : Nat} {g g' : Gate} (hl : GateLeft ramp g { g.hold with host := false } g') :
    g'.st = (if g.hold.isEmpty = true ∨ g'.hold.isEmpty = false then g.st
      else if ramp = 0 ∨ g.gain = 1024 then .opened else .opening) ∧
    g'.gain = (if g.hold.isEmpty = false ∧ g'.hold.isEmpty = true ∧ ramp = 0 then 1024 else g.gain) := by
  obtain ⟨hhold, -, hsame, -, hopen⟩ := hl
  rw [hhold]
  cases hh : g.hold.isEmpty with
  | true => simpa using hsame (hh.trans (HoldSet.isEmpty_release hh).symm)
  | false =>
    cases he : ({ g.hold with host := false } : HoldSet).isEmpty with
    | true => simpa using hopen hh he
    | false => simpa using hsame (hh.trans he.symm)

/-- GATE answers with the gate that its change of the HOST reason leaves (R100). -/
theorem opGate_some (hc : chanOf channel = some c)
    (ht : s.changeHold c { (s.chan c).gate.hold with host := hold } = t) :
    opGate channel hold s = (t, 0x00#8 :: gateBody (t.chan c).gate) := by
  subst ht
  simp only [opGate, hc]
  rfl

end Sys2Proof.Machine

open Sys2Proof.Machine

/-- Settles O30: HOLD and RELEASE move the gate alone, but where R77 asks for BLANK. -/
theorem gateRequests : Obligations.GateRequests := by
  intro s r channel e
  have held {t : State} {body : List Byte} (ht : s.takes r .gate [channel, 0#8])
      (ho : opGate channel true e = (t, body)) :
      exec (.gateHold r channel) s = .next (t.replied r .gate [channel, 0#8] body) :=
    congrArg _ (request_answers ht ho)
  have released {t : State} {body : List Byte} (ht : s.takes r .gate [channel, 1#8])
      (ho : opGate channel false e = (t, body)) :
      exec (.gateRelease r channel) s = .next (t.replied r .gate [channel, 1#8] body) :=
    congrArg _ (request_answers ht ho)
  refine ⟨fun hc => ⟨fun ht => held ht (by rw [opGate, hc]; rfl), fun ht => released ht (by rw [opGate, hc]; rfl)⟩,
    fun c hc hg => ?_⟩
  have left (h : HoldSet) := gate_move_left hg (e.chan c).cfg.ramp h
  refine ⟨fun ht hst => ?_, fun ht hkeep => ?_, fun ht hready halone => ?_⟩
  · have hk : e.keepsBlank c { (e.chan c).gate.hold with host := true } = false := by simp [State.keepsBlank]
    refine ⟨_, held ht (opGate_some hc (changeHold_plain hg hst hk)), applyHold_frame e c _, ?_⟩
    rw [applyHold_chan]
    exact ⟨rfl, gateLeft_hold (left _)⟩
  · have hk : e.keepsBlank c { (e.chan c).gate.hold with host := false } = false := by
      rw [Bool.eq_false_iff, Ne, keepsBlank_iff]
      rintro ⟨hready, hh, he⟩
      exact hkeep.elim (by simp [hready]) fun hne => hne (HoldSet.hostAlone_of_release hh he)
    have hplain : e.changeHold c { (e.chan c).gate.hold with host := false } =
        e.applyHold c { (e.chan c).gate.hold with host := false } := by
      cases hh : (e.chan c).gate.hold.isEmpty with
      | true => exact changeHold_empty hh (HoldSet.isEmpty_release hh)
      | false => exact changeHold_plain hg (.inr hh) hk
    refine ⟨_, released ht (opGate_some hc hplain), applyHold_frame e c _, ?_⟩
    rw [applyHold_chan]
    exact ⟨rfl, gateLeft_release (left _)⟩
  · have hov : (e.chan c).st = .overstay := by
      simp only [Channel.readyBlankOverstay, Bool.and_eq_true, beq_iff_eq] at hready
      exact hready.1.1
    obtain ⟨hleft, hrep, hslots, hepoch, hother⟩ := changeHold_left hg (.inl (by simp [hov, ChanState.isEnding]))
      { (e.chan c).gate.hold with host := false }
    have hm := changeHold_changed e c { (e.chan c).gate.hold with host := false }
    obtain ⟨hch, hst, hhold, hgst, hgain⟩ := hleft.blank hready (by rw [halone]; rfl) (by rw [halone]; rfl)
    refine ⟨_, released ht (opGate_some hc rfl), hhold.trans (by rw [halone]), hgst, hgain, hst, hch, hother, hslots,
      hepoch, hm.store, hm.loader, hm.link, ?_⟩
    rw [hrep]
    simp [Channel.holdReports, hst, hov, hgst]

end

section
/-! What the arbiter's choice leaves unchanged, as its obligation states it. -/

open Sys2Proof

namespace Sys2Proof.Machine

/-- A report's departure leaves the mask and the opening of the block (R138, R144). -/
theorem departHead_kept (b : ReportBlock) : b.departHead.mask = b.mask ∧ b.departHead.isOpen = b.isOpen := by
  unfold ReportBlock.departHead
  split <;> exact ⟨rfl, rfl⟩

theorem sendHead_outputs (s : State) (r : Report) : (s.sendHead r).ports = s.ports ∧
    (s.sendHead r).reports.mask = s.reports.mask ∧ (s.sendHead r).reports.isOpen = s.reports.isOpen := by
  unfold State.sendHead
  split <;> exact ⟨rfl, departHead_kept s.reports⟩

/-- The arbiter leaves the ports, the mask and the opening of the report block. -/
theorem arbitrate_outputs (s : State) : s.arbitrate.ports = s.ports ∧
    s.arbitrate.reports.mask = s.reports.mask ∧ s.arbitrate.reports.isOpen = s.reports.isOpen := by
  rcases arbitrate_cases s with ⟨-, h⟩ | ⟨-, -, ⟨o, rest, -, h⟩ | ⟨-, r, -, h⟩ | ⟨-, -, r, rest, -, h⟩ |
    ⟨-, -, -, h⟩⟩ <;> rw [h]
  · exact ⟨rfl, rfl, rfl⟩
  · exact ⟨rfl, rfl, rfl⟩
  · exact ⟨rfl, rfl, rfl⟩
  · exact sendHead_outputs s r
  · exact ⟨rfl, rfl, rfl⟩

/-- While a frame is in transmission the arbiter starts nothing (R122). -/
theorem arbitrate_busy {s : State} (h : s.link.tx.isSome = true) : s.arbitrate = s := by
  simp [State.arbitrate, h]

end Sys2Proof.Machine

open Sys2Proof.Machine

/-- Settles O10: what the arbiter's four choices leave, and what the ports leave when they are driven. -/
theorem finishFrame : Obligations.FinishFrame := by
  intro s
  obtain ⟨hepoch, hpin, hline, hchan⟩ := finish_kept s
  obtain ⟨hports, hmask, hopen⟩ := arbitrate_outputs s
  have hslots : s.finish.slots = s.slots := by
    rw [State.finish, State.drivePorts_slots, (arbitrate_sameEngine s).1.slots]
  have held {α : Type} (f : Held → α) : f s.finish.held = f s.held := congrArg f (held_finish s)
  exact ⟨hslots, hepoch, hchan .A, hchan .B, hline, hpin, by simp [State.finish, hports],
    by simp [State.finish, hports], by simp [State.finish, hports], by simp [State.finish, hports],
    by simp [State.finish, hmask], by simp [State.finish, hopen], held Held.rx, held Held.buf, held Held.deaf,
    held Held.cache, held Held.rate, held Held.fullResetDue, held Held.mem, held Held.dirs, held Held.op,
    held Held.ctx, held Held.staging, held Held.pending, fun hbusy => by rw [State.finish, arbitrate_busy hbusy]⟩

end

section
/-! The ramp: its steps, and its landing, as its obligation states it. -/

open Sys2Proof

namespace Sys2Proof.Machine

/-- The distance of a moving gate from its target after a period (R90). -/
def rampLeft (L d : Nat) : Nat := d - rampStep L d

theorem rampLeft_eq (L d : Nat) :
    rampLeft L d = if 1024 / L + (1024 - L * (1024 / L)) < d then d - 1024 / L else 0 := by
  unfold rampLeft rampStep Config.fullGain
  dsimp only
  split
  · rfl
  · exact Nat.sub_self d

theorem rampLeft_mono (L : Nat) : Monotone (rampLeft L) := by
  intro d e h
  rw [rampLeft_eq, rampLeft_eq]
  split <;> split <;> omega

/-- The move of a closing gate over any number of periods (R90). -/
theorem closing_repeat {L : Nat} {g : Gate} (h : g.st = .closing) (n : Nat) :
    (Nat.repeat (Gate.step L) n g).st = .closing ∧
    (Nat.repeat (Gate.step L) n g).gain = Nat.repeat (rampLeft L) n g.gain := by
  induction n with
  | zero => exact ⟨h, rfl⟩
  | succ n ih =>
    obtain ⟨hst, hgain⟩ := ih
    exact ⟨hst, by simp only [Nat.repeat, Gate.step, hst, hgain, rampLeft]⟩

/-- The move of an opening gate over any number of periods (R90). -/
theorem opening_repeat {L : Nat} {g : Gate} (h : g.st = .opening) (hg : g.gain ≤ 1024) (n : Nat) :
    (Nat.repeat (Gate.step L) n g).st = .opening ∧
    (Nat.repeat (Gate.step L) n g).gain = 1024 - Nat.repeat (rampLeft L) n (1024 - g.gain) ∧
    Nat.repeat (rampLeft L) n (1024 - g.gain) ≤ 1024 := by
  induction n with
  | zero => exact ⟨h, (Nat.sub_sub_self hg).symm, Nat.sub_le _ _⟩
  | succ n ih =>
    obtain ⟨hst, hgain, hle⟩ := ih
    have hstep := rampStep_le L (Nat.repeat (rampLeft L) n (1024 - g.gain))
    have htarget : Config.fullGain - (1024 - Nat.repeat (rampLeft L) n (1024 - g.gain)) =
        Nat.repeat (rampLeft L) n (1024 - g.gain) := Nat.sub_sub_self hle
    refine ⟨hst, ?_, ?_⟩
    · simp only [Nat.repeat, Gate.step, hst, hgain, htarget, rampLeft]
      omega
    · simp only [Nat.repeat, rampLeft]
      omega

/-- A full move stands n steps from its start after n of its first L − 1 periods (R90). -/
theorem rampLeft_full {L n : Nat} (hL : L ≤ 1023) (hn : n < L) :
    Nat.repeat (rampLeft L) n 1024 = 1024 - n * (1024 / L) := by
  induction n with
  | zero => simp [Nat.repeat]
  | succ n ih =>
    have hstep : 0 < 1024 / L := Nat.div_pos (by omega) (by omega)
    have hfit : L * (1024 / L) ≤ 1024 := Nat.mul_div_le 1024 L
    have hfar : (n + 2) * (1024 / L) ≤ L * (1024 / L) := Nat.mul_le_mul_right _ (by omega)
    simp only [Nat.repeat]
    rw [ih (by omega), rampLeft_eq, if_pos (by rw [Nat.add_mul] at hfar; omega), Nat.succ_mul, Nat.sub_sub]

/-- A full move lands in its L-th period (R90). -/
theorem rampLeft_full_lands {L : Nat} (h1 : 1 ≤ L) (hL : L ≤ 1023) : Nat.repeat (rampLeft L) L 1024 = 0 := by
  obtain ⟨m, rfl⟩ : ∃ m, L = m + 1 := ⟨L - 1, by omega⟩
  have hfit : (m + 1) * (1024 / (m + 1)) ≤ 1024 := Nat.mul_div_le 1024 (m + 1)
  rw [Nat.repeat, rampLeft_full hL (Nat.lt_succ_self m), rampLeft_eq, if_neg]
  rw [Nat.succ_mul] at hfit ⊢
  generalize 1024 / (m + 1) = step at hfit ⊢
  generalize m * step = moved at hfit ⊢
  omega

theorem rampLeft_repeat_mono (L n : Nat) : Monotone (Nat.repeat (rampLeft L) n) := by
  induction n with
  | zero => exact monotone_id
  | succ n ih => exact (rampLeft_mono L).comp ih

/-- A move from any gain lands no later than a full move (R90). -/
theorem rampLeft_lands {L d : Nat} (h1 : 1 ≤ L) (hL : L ≤ 1023) (hd : d ≤ 1024) :
    Nat.repeat (rampLeft L) L d = 0 :=
  Nat.le_zero.mp ((rampLeft_repeat_mono L L hd).trans_eq (rampLeft_full_lands h1 hL))

end Sys2Proof.Machine

open Sys2Proof.Machine

/-- Settles O49: by the distance from the target, which falls as that of a full move from no nearer. -/
theorem rampLands : Obligations.RampLands := by
  intro L h1 hL g hg
  dsimp only
  refine ⟨fun hst => ⟨?_, fun hfull n hn => ?_, ?_⟩, fun hst => ⟨?_, fun hzero n hn => ?_, ?_⟩⟩
  · exact (closing_repeat hst 1).2.trans (rampLeft_eq L g.gain)
  · rw [(closing_repeat hst n).2, hfull, rampLeft_full hL hn]
  · rw [(closing_repeat hst L).2, rampLeft_lands h1 hL hg]
  · have hgain : (g.step L).gain = 1024 - rampLeft L (1024 - g.gain) := (opening_repeat hst hg 1).2.1
    rw [hgain, rampLeft_eq]
    generalize 1024 / L = step
    generalize L * step = moved
    split <;> omega
  · have hfit : n * (1024 / L) ≤ 1024 := (Nat.mul_le_mul_right _ hn.le).trans (Nat.mul_div_le 1024 L)
    rw [(opening_repeat hst hg n).2.1, hzero, rampLeft_full hL hn, Nat.sub_sub_self hfit]
  · rw [(opening_repeat hst hg L).2.1, rampLeft_lands h1 hL (Nat.sub_le _ _)]

end

section
/-! The resets, as their obligation states them. -/

open Sys2Proof

namespace Sys2Proof.Machine

variable {s u : State} {st : Store}

/-! The store as a cold reset cuts its operation short (R150, R167). -/

theorem interrupted_none (h : st.op = none) (n : Nat) : st.interrupted n = st := by
  simp only [Store.interrupted, h]

theorem interrupted_erase {a : Fin 8} {seq : Byte} {n : Nat} (h : st.op = some (.erase a seq)) (hn : n ≤ 64) :
    st.interrupted n = st.eraseChunks a n := by
  simp only [Store.interrupted, h, Nat.min_eq_left hn]

theorem interrupted_write {a : Fin 8} {seq : Byte} {chunk : Nat} {data : List Byte}
    (h : st.op = some (.write a seq chunk data)) (n : Nat) :
    st.interrupted n = st.program a chunk (data.take n) := by
  simp only [Store.interrupted, h]

theorem interrupted_validation {a : Fin 8} {seq : Byte} {au sa : Bool} {c : Chan}
    (h : st.op = some (.commit a seq au c sa none)) (n : Nat) : st.interrupted n = st := by
  simp only [Store.interrupted, h]

theorem interrupted_commit {a : Fin 8} {seq : Byte} {au sa : Bool} {c : Chan} {rec : CommitRec}
    (h : st.op = some (.commit a seq au c sa (some rec))) (n : Nat) :
    st.interrupted n = st.program a Config.commitChunk ((commitRecordBytes rec).take n) := by
  simp only [Store.interrupted, h]

/-- A revoke record carries the image CRC of the directory's record (R136; assumption log 42). -/
theorem interrupted_revoke {a : Fin 8} {seq : Byte} {rec : CommitRec} (h : st.op = some (.revoke a seq))
    (hrec : (st.dir a).commit = some rec) (n : Nat) :
    st.interrupted n = st.program a Config.revokeChunk ((revokeRecordBytes rec.imageCrc).take n) := by
  simp only [Store.interrupted, h, Store.revokeBytes, hrec, Option.map_some, Option.getD_some]

theorem interrupted_scan {cause : ResetCause} (h : st.op = some (.scan cause)) (n : Nat) :
    st.interrupted n = st.scan n := by
  simp only [Store.interrupted, h]

theorem scan_dir (st : Store) (n : Nat) (a : Fin 8) :
    (st.scan n).dirs.get a = if a.val < n then st.scanDir a else st.dir a := by
  simp [Store.scan, Vector.get_ofFn]

/-- The directory after the scan's completion (R168). -/
theorem scanDone_finish_dir (s : State) (cause : ResetCause) (a : Fin 8) :
    ((s.scanDone cause).finish).store.dir a = s.store.scanDir a := by
  have hdirs : ((s.scanDone cause).finish).store.dirs = (s.store.scan 8).dirs :=
    congrArg Held.dirs (held_finish (s.scanDone cause))
  rw [Store.dir, hdirs, scan_dir, if_pos a.isLt]

theorem exec_scanComplete {cause : ResetCause} (h : s.store.op = some (.scan cause)) :
    exec .scanComplete s = .next (s.scanDone cause).finish := by
  show Host.Outcome.next _ = _
  rw [h]

/-! The state that a reset leaves (R129). -/

/-- A cold reset by what it leaves of the store (R109, R129). -/
theorem exec_coldReset {straps : Straps} {span : ColdSpan} (h : s.store.interrupted span.progress = st) :
    exec (.coldReset straps span) s =
      .next (s.restart st straps .cold (Ports.reset (s.ports.strobes + span.periods))) := by
  subst h
  rfl

theorem exec_fullReset (h : s.link.fullResetDue = true) (straps : Straps) (stopped : Bool) :
    exec (.fullReset straps stopped) s = .next (s.fullReset straps stopped) := by
  show Host.Outcome.next _ = _
  rw [if_pos h]

/-- A FULL_RESET that is not due does not occur (assumption log 7). -/
theorem exec_fullReset_undue (h : s.link.fullResetDue = false) (straps : Straps) (stopped : Bool) :
    exec (.fullReset straps stopped) s = .next s := by
  show Host.Outcome.next _ = _
  rw [h]
  rfl

/-- A reset channel's sample is 0, so a FULL reset in an open period drives both ports to 0 (R109). -/
theorem drivePorts_restart (s : State) (st : Store) (straps : Straps) (cause : ResetCause) (p : Ports) :
    (s.restart st straps cause p).drivePorts = s.restart st straps cause
      (if p.periodOpen = true then { p with douta := 0#16, doutb := 0#16 } else p) := by
  show (if p.periodOpen = true then _ else _) = _
  split <;> rfl

/-- A FULL reset keeps the areas, the directory and the commands that wait (R129, R167). -/
theorem fullReset_eq (s : State) (straps : Straps) (stopped : Bool) : s.fullReset straps stopped =
    s.restart s.store straps .request (s.fullReset straps stopped).ports := by
  have held {α : Type} (f : Held → α) : f (s.noteClock stopped).held = f s.held :=
    congrArg f (held_noteClock s stopped)
  have hmem : (s.noteClock stopped).store.mem = s.store.mem := held Held.mem
  have hdirs : (s.noteClock stopped).store.dirs = s.store.dirs := held Held.dirs
  have hpending : (s.noteClock stopped).pending = s.pending := held Held.pending
  unfold State.fullReset
  dsimp only
  rw [drivePorts_restart]
  simp only [State.restart, Store.restarted, hmem, hdirs, hpending]

/-- The ports of a FULL reset (R50, R109). -/
theorem fullReset_ports (s : State) (straps : Straps) (stopped : Bool) : (s.fullReset straps stopped).ports =
    if (s.noteClock stopped).ports.periodOpen = true then
      { (s.noteClock stopped).ports with douta := 0#16, doutb := 0#16 }
    else (s.noteClock stopped).ports := by
  unfold State.fullReset
  dsimp only
  rw [drivePorts_restart]
  rfl

end Sys2Proof.Machine

open Sys2Proof.Machine

/-- Settles O57: a reset is a restart, around the store as its operation was cut short. -/
theorem resetsAct : Obligations.ResetsAct := by
  intro s straps rate
  refine ⟨?_, fun stopped => ⟨fun hdue => exec_fullReset_undue hdue straps stopped, fun hdue =>
    ⟨_, exec_fullReset hdue straps stopped, fullReset_eq s straps stopped, fun hopen hrun => ?_, fun hopen hrun => ?_,
      fun hstop => ?_⟩⟩⟩
  · intro span n after leaves
    refine ⟨fun h => exec_coldReset (interrupted_none h _),
      fun a seq h hn => exec_coldReset (interrupted_erase h hn),
      fun a seq chunk data h => exec_coldReset (interrupted_write h _),
      fun a seq au c sa h => exec_coldReset (interrupted_validation h _),
      fun a seq au c sa rec h => exec_coldReset (interrupted_commit h _),
      fun a seq rec h hrec => exec_coldReset (interrupted_revoke h hrec _), fun cause h =>
      ⟨(s.store.scan n).dirs, (s.scanDone cause).finish, exec_coldReset (interrupted_scan h _),
        exec_scanComplete h, fun a => by rw [scan_dir, scanDone_finish_dir]⟩⟩
  all_goals rw [fullReset_ports]
  · subst hrun
    exact if_pos hopen
  · subst hrun
    exact if_neg (by simp [State.noteClock, hopen])
  · subst hstop
    rfl

end

section
/-! The sine table beside the sine, as its obligation states it: the series in fixed point stays within a few units
of the true partial sum, and that partial sum within its first dropped term of the sine. -/

open Sys2Proof

namespace Sys2Proof.Machine

/-- The size of term `i` of the sine's power series. -/
noncomputable def sineTerm (x : ℝ) (i : ℕ) : ℝ := x ^ (2 * i + 1) / (2 * i + 1).factorial

/-- The partial sum of `fuel` alternating terms from term `i` on. -/
noncomputable def sinePartial (x : ℝ) (fuel i : ℕ) : ℝ :=
  ∑ j ∈ Finset.range fuel, (-1) ^ j * sineTerm x (i + j)

variable {x : ℝ} {i fuel : ℕ}

theorem sineTerm_succ (x : ℝ) (i : ℕ) :
    sineTerm x (i + 1) = sineTerm x i * x ^ 2 / ((2 * i + 2) * (2 * i + 3)) := by
  have hfac : (2 * (i + 1) + 1).factorial = (2 * i + 3) * ((2 * i + 2) * (2 * i + 1).factorial) := rfl
  have hpos : ((2 * i + 1).factorial : ℝ) ≠ 0 := Nat.cast_ne_zero.mpr (Nat.factorial_ne_zero _)
  rw [sineTerm, sineTerm, hfac]
  push_cast
  field_simp
  ring

theorem sineTerm_nonneg (hx : 0 ≤ x) (i : ℕ) : 0 ≤ sineTerm x i := by
  unfold sineTerm
  positivity

theorem sineTerm_divisor (i : ℕ) : (6 : ℝ) ≤ (2 * i + 2) * (2 * i + 3) := by
  have hi : (0 : ℝ) ≤ i := Nat.cast_nonneg i
  nlinarith

/-- On the first quarter turn no term exceeds the one before it. -/
theorem sineTerm_succ_le (h0 : 0 ≤ x) (h1 : x ≤ 8 / 5) (i : ℕ) : sineTerm x (i + 1) ≤ sineTerm x i := by
  have hsq : x ^ 2 ≤ 6 := by nlinarith
  have hden := sineTerm_divisor i
  rw [sineTerm_succ, div_le_iff₀ (by linarith)]
  exact mul_le_mul_of_nonneg_left (hsq.trans hden) (sineTerm_nonneg h0 i)

theorem sineTerm_antitone (h0 : 0 ≤ x) (h1 : x ≤ 8 / 5) : Antitone (sineTerm x) :=
  antitone_nat_of_succ_le (sineTerm_succ_le h0 h1)

theorem sineTerm_le (h0 : 0 ≤ x) (h1 : x ≤ 8 / 5) (i : ℕ) : sineTerm x i ≤ 8 / 5 :=
  (sineTerm_antitone h0 h1 (Nat.zero_le i)).trans (by simpa [sineTerm] using h1)

theorem sinePartial_succ (x : ℝ) (fuel i : ℕ) :
    sinePartial x (fuel + 1) i = sineTerm x i - sinePartial x fuel (i + 1) := by
  have hterm (j : ℕ) : (-1) ^ (j + 1) * sineTerm x (i + (j + 1)) = -((-1) ^ j * sineTerm x (i + 1 + j)) := by
    rw [pow_succ, Nat.add_right_comm i 1 j, ← Nat.add_assoc]
    ring
  rw [sinePartial, Finset.sum_range_succ', Finset.sum_congr rfl fun j _ => hterm j, Finset.sum_neg_distrib]
  simp [sinePartial]
  ring

/-- Sixteen terms of the series reach the sine on the first quarter turn. -/
theorem sinePartial_near_sin (h0 : 0 ≤ x) (h1 : x ≤ 8 / 5) :
    |Real.sin x - sinePartial x 16 0| ≤ 1 / 10 ^ 9 := by
  have hsum : ∑' j : ℕ, (-1) ^ j * sineTerm x j = Real.sin x := by
    rw [Real.sin_eq_tsum]
    simp only [sineTerm, mul_div_assoc]
  have hbound := alternating_series_error_bound (sineTerm x) (sineTerm_antitone h0 h1)
    (Real.hasSum_sinh x).summable 16
  have hlast : sineTerm x 16 ≤ 1 / 10 ^ 9 := by
    have hpow : x ^ 33 ≤ (8 / 5) ^ 33 := pow_le_pow_left₀ h0 h1 33
    have hsmall : ((8 / 5) ^ 33 : ℝ) / Nat.factorial 33 ≤ 1 / 10 ^ 9 := by norm_num [Nat.factorial]
    exact (div_le_div_of_nonneg_right hpow (Nat.cast_nonneg _)).trans hsmall
  rw [hsum] at hbound
  simpa [sinePartial] using hbound.trans hlast

/-! The series in fixed point. -/

/-- A division of natural numbers, beside the real quotient. -/
theorem natDiv_near (a b : ℕ) : (a : ℝ) / b - 1 < (a / b : ℕ) ∧ ((a / b : ℕ) : ℝ) ≤ a / b :=
  ⟨(Nat.sub_one_lt_floor _).trans_eq (congrArg _ (Nat.floor_div_eq_div a b)), Nat.cast_div_le⟩

theorem sineUnit_large : (10 : ℝ) ^ 20 < sineUnit := by norm_num [sineUnit]

theorem sineUnit_pos : (0 : ℝ) < sineUnit := lt_trans (by norm_num) sineUnit_large

/-- The product that gives the next term, beside the true one. -/
theorem sineProduct_near {t x2 : ℕ} (h0 : 0 ≤ x) (h1 : x ≤ 8 / 5) (ht : |(t : ℝ) - sineUnit * sineTerm x i| ≤ 4)
    (hx2 : |(x2 : ℝ) - sineUnit * x ^ 2| ≤ 1) :
    |(t : ℝ) * x2 - sineUnit * sineTerm x i * (sineUnit * x ^ 2)| ≤ 12 * sineUnit := by
  have hU := sineUnit_large
  have hT0 : 0 ≤ sineUnit * sineTerm x i := mul_nonneg sineUnit_pos.le (sineTerm_nonneg h0 i)
  have hT : sineUnit * sineTerm x i ≤ sineUnit * (8 / 5) :=
    mul_le_mul_of_nonneg_left (sineTerm_le h0 h1 i) sineUnit_pos.le
  have hsq : sineUnit * x ^ 2 ≤ sineUnit * (64 / 25) :=
    mul_le_mul_of_nonneg_left (by nlinarith) sineUnit_pos.le
  have hx2' : (x2 : ℝ) ≤ sineUnit * (64 / 25) + 1 := by linarith [(abs_le.mp hx2).2]
  calc |(t : ℝ) * x2 - sineUnit * sineTerm x i * (sineUnit * x ^ 2)|
      = |(t - sineUnit * sineTerm x i) * x2 + sineUnit * sineTerm x i * (x2 - sineUnit * x ^ 2)| := by
        congr 1
        ring
    _ ≤ |t - sineUnit * sineTerm x i| * x2 + sineUnit * sineTerm x i * |x2 - sineUnit * x ^ 2| := by
        refine (abs_add_le _ _).trans_eq ?_
        rw [abs_mul, abs_mul, Nat.abs_cast, abs_of_nonneg hT0]
    _ ≤ 4 * (sineUnit * (64 / 25) + 1) + sineUnit * (8 / 5) * 1 := by gcongr
    _ ≤ 12 * sineUnit := by linarith

/-- A term of the fixed-point series that is within 4 units of the true one is followed by one that is so too. -/
theorem sineTerms_next {t x2 : ℕ} (h0 : 0 ≤ x) (h1 : x ≤ 8 / 5) (ht : |(t : ℝ) - sineUnit * sineTerm x i| ≤ 4)
    (hx2 : |(x2 : ℝ) - sineUnit * x ^ 2| ≤ 1) :
    |((t * x2 / (sineUnit * (2 * i + 1 + 1) * (2 * i + 1 + 2)) : ℕ) : ℝ) - sineUnit * sineTerm x (i + 1)| ≤ 4 := by
  have hU := sineUnit_pos
  have hden := sineTerm_divisor i
  have hquot : |(t : ℝ) * x2 / (sineUnit * ((2 * i + 2) * (2 * i + 3))) - sineUnit * sineTerm x (i + 1)| ≤ 2 := by
    have hsplit : (t : ℝ) * x2 / (sineUnit * ((2 * i + 2) * (2 * i + 3))) - sineUnit * sineTerm x (i + 1) =
        (t * x2 - sineUnit * sineTerm x i * (sineUnit * x ^ 2)) / (sineUnit * ((2 * i + 2) * (2 * i + 3))) := by
      rw [sineTerm_succ]
      field_simp
    have hpos : (0 : ℝ) < sineUnit * ((2 * i + 2) * (2 * i + 3)) := mul_pos hU (by linarith)
    rw [hsplit, abs_div, abs_of_pos hpos, div_le_iff₀ hpos]
    linarith [sineProduct_near h0 h1 ht hx2, mul_le_mul_of_nonneg_left hden hU.le]
  have hcast : ((t * x2 : ℕ) : ℝ) / ((sineUnit * (2 * i + 1 + 1) * (2 * i + 1 + 2) : ℕ) : ℝ) =
      t * x2 / (sineUnit * ((2 * i + 2) * (2 * i + 3))) := by
    push_cast
    ring
  obtain ⟨hlow, hhigh⟩ := natDiv_near (t * x2) (sineUnit * (2 * i + 1 + 1) * (2 * i + 1 + 2))
  rw [hcast] at hlow hhigh
  rw [abs_le] at hquot ⊢
  constructor <;> linarith [hquot.1, hquot.2]

/-- The terms added less the terms taken away stand within 4 units a term of the true partial sum. -/
theorem sineTerms_near {t x2 : ℕ} (h0 : 0 ≤ x) (h1 : x ≤ 8 / 5) (hx2 : |(x2 : ℝ) - sineUnit * x ^ 2| ≤ 1)
    (ht : |(t : ℝ) - sineUnit * sineTerm x i| ≤ 4) :
    |((sineTerms x2 fuel (2 * i + 1) t).1 - (sineTerms x2 fuel (2 * i + 1) t).2 : ℝ) -
      sineUnit * sinePartial x fuel i| ≤ 4 * fuel := by
  induction fuel generalizing i t with
  | zero => simp [sineTerms, sinePartial]
  | succ fuel ih =>
    have hrest := ih (sineTerms_next h0 h1 ht hx2)
    rw [sinePartial_succ]
    simp only [sineTerms]
    generalize sineTerms x2 fuel _ _ = rest at hrest ⊢
    push_cast
    rw [abs_le] at ht hrest ⊢
    constructor <;> linarith [ht.1, ht.2, hrest.1, hrest.2]

/-! The first quarter turn. -/

/-- The angle of an entry of the first quarter turn, in fixed point. -/
def sineAngle (k : ℕ) : ℕ := sinePi * k / 8192

theorem sinePi_near : |(sinePi : ℝ) / sineUnit - Real.pi| ≤ 1 / 10 ^ 20 := by
  have hlow := Real.pi_gt_d20
  have hhigh := Real.pi_lt_d20
  have hlow' : (3.14159265358979323846 : ℝ) < sinePi / sineUnit := by norm_num [sinePi, sineUnit]
  have hhigh' : (sinePi : ℝ) / sineUnit < 3.14159265358979323847 := by norm_num [sinePi, sineUnit]
  rw [abs_le]
  constructor <;> linarith

theorem sineAngle_near {k : ℕ} (hk : k ≤ 4096) :
    |(sineAngle k : ℝ) / sineUnit - Real.pi * k / 8192| ≤ 1 / 10 ^ 19 := by
  have hU := sineUnit_pos
  have hk' : (k : ℝ) / 8192 ≤ 1 := by
    rw [div_le_one (by norm_num)]
    exact_mod_cast hk.trans (by norm_num)
  have hpi : |(sinePi : ℝ) / sineUnit * (k / 8192) - Real.pi * (k / 8192)| ≤ 1 / 10 ^ 20 := by
    rw [← sub_mul, abs_mul, abs_of_nonneg (by positivity : (0 : ℝ) ≤ k / 8192)]
    exact (mul_le_of_le_one_right (abs_nonneg _) hk').trans sinePi_near
  have hfloor : |(sineAngle k : ℝ) / sineUnit - sinePi / sineUnit * (k / 8192)| ≤ 1 / 10 ^ 20 := by
    have hsplit : (sineAngle k : ℝ) / sineUnit - sinePi / sineUnit * (k / 8192) =
        (sineAngle k - sinePi * k / 8192) / sineUnit := by
      field_simp
    obtain ⟨hlow, hhigh⟩ := natDiv_near (sinePi * k) 8192
    push_cast at hlow hhigh
    have hone : |(sineAngle k : ℝ) - sinePi * k / 8192| ≤ 1 := by
      rw [abs_le, sineAngle]
      constructor <;> linarith
    rw [hsplit, abs_div, abs_of_pos hU, div_le_iff₀ hU]
    linarith [sineUnit_large]
  rw [mul_div_assoc]
  rw [abs_le] at hpi hfloor ⊢
  constructor <;> linarith [hpi.1, hpi.2, hfloor.1, hfloor.2]

/-- The angles of the first quarter turn, where the series is taken. -/
theorem sineAngle_range {k : ℕ} (hk : k ≤ 4096) :
    (0 : ℝ) ≤ sineAngle k / sineUnit ∧ (sineAngle k : ℝ) / sineUnit ≤ 8 / 5 := by
  refine ⟨by positivity, ?_⟩
  have hk' : (k : ℝ) ≤ 4096 := by exact_mod_cast hk
  have hturn : Real.pi * k ≤ 3.15 * 4096 := by
    gcongr
    exact Real.pi_lt_d2.le
  have hnear := (abs_le.mp (sineAngle_near hk)).2
  linarith

/-- The terms added and the terms taken away at the angle of an entry of the first quarter turn. -/
def sineSeries (k : ℕ) : ℕ × ℕ := sineTerms (sineAngle k * sineAngle k / sineUnit) 16 1 (sineAngle k)

theorem sineQuarter_eq (k : ℕ) :
    sineQuarter k = (2 * 32767 * ((sineSeries k).1 - (sineSeries k).2) + sineUnit) / (2 * sineUnit) := rfl

/-- The series in fixed point stands within 64 units of its true partial sum. -/
theorem sineSeries_near_partial {k : ℕ} (hk : k ≤ 4096) :
    |((sineSeries k).1 - (sineSeries k).2 : ℝ) - sineUnit * sinePartial (sineAngle k / sineUnit) 16 0| ≤ 64 := by
  have hU := sineUnit_pos
  obtain ⟨h0, h1⟩ := sineAngle_range hk
  have ht : |(sineAngle k : ℝ) - sineUnit * sineTerm (sineAngle k / sineUnit) 0| ≤ 4 := by
    have hfirst : (sineUnit : ℝ) * sineTerm (sineAngle k / sineUnit) 0 = sineAngle k := by
      simp [sineTerm, mul_div_cancel₀ _ hU.ne']
    simp [hfirst]
  have hx2 : |((sineAngle k * sineAngle k / sineUnit : ℕ) : ℝ) - sineUnit * (sineAngle k / sineUnit) ^ 2| ≤ 1 := by
    have hsq : (sineUnit : ℝ) * (sineAngle k / sineUnit) ^ 2 = ((sineAngle k * sineAngle k : ℕ) : ℝ) / sineUnit := by
      push_cast
      field_simp
    obtain ⟨hlow, hhigh⟩ := natDiv_near (sineAngle k * sineAngle k) sineUnit
    rw [hsq, abs_le]
    constructor <;> linarith
  exact (sineTerms_near (i := 0) (fuel := 16) h0 h1 hx2 ht).trans (by norm_num)

/-- The series in fixed point beside the sine of its angle. -/
theorem sineSeries_near_sin {k : ℕ} (hk : k ≤ 4096) :
    |((sineSeries k).1 - (sineSeries k).2 : ℝ) / sineUnit - Real.sin (sineAngle k / sineUnit)| ≤ 1 / 10 ^ 8 := by
  have hU := sineUnit_pos
  obtain ⟨h0, h1⟩ := sineAngle_range hk
  have hseries : |((sineSeries k).1 - (sineSeries k).2 : ℝ) / sineUnit -
      sinePartial (sineAngle k / sineUnit) 16 0| ≤ 1 / 10 ^ 9 := by
    rw [div_sub' hU.ne', abs_div, abs_of_pos hU, div_le_iff₀ hU]
    linarith [sineSeries_near_partial hk, sineUnit_large]
  have hsin := sinePartial_near_sin h0 h1
  rw [abs_le] at hseries hsin ⊢
  constructor <;> linarith [hseries.1, hseries.2, hsin.1, hsin.2]

/-- The natural subtraction of the terms taken away loses nothing, the sine being none below 0. -/
theorem sineSeries_sub_near {k : ℕ} (hk : k ≤ 4096) :
    |(((sineSeries k).1 - (sineSeries k).2 : ℕ) : ℝ) / sineUnit - Real.sin (sineAngle k / sineUnit)| ≤ 1 / 10 ^ 8 := by
  have hreal := sineSeries_near_sin hk
  rcases le_total (sineSeries k).2 (sineSeries k).1 with hle | hle
  · rwa [Nat.cast_sub hle]
  · obtain ⟨h0, h1⟩ := sineAngle_range hk
    have hsin : 0 ≤ Real.sin (sineAngle k / sineUnit) :=
      Real.sin_nonneg_of_nonneg_of_le_pi h0 (h1.trans (by linarith [Real.pi_gt_three]))
    have hneg : ((sineSeries k).1 - (sineSeries k).2 : ℝ) / sineUnit ≤ 0 :=
      div_nonpos_of_nonpos_of_nonneg (sub_nonpos.mpr (Nat.cast_le.mpr hle)) sineUnit_pos.le
    rw [Nat.sub_eq_zero_of_le hle, Nat.cast_zero, zero_div, zero_sub, abs_neg, abs_of_nonneg hsin]
    linarith [(abs_le.mp hreal).1]

/-- The table on the first quarter turn is the rounded sine (R106). -/
theorem sineQuarter_near {k : ℕ} (hk : k ≤ 4096) :
    |(sineQuarter k : ℝ) - 32767 * Real.sin (Real.pi * k / 8192)| ≤ 501 / 1000 := by
  have hU := sineUnit_pos
  have hsum := sineSeries_sub_near hk
  have hangle := (Real.abs_sin_sub_sin_le _ _).trans (sineAngle_near hk)
  obtain ⟨hlow, hhigh⟩ := natDiv_near (2 * 32767 * ((sineSeries k).1 - (sineSeries k).2) + sineUnit) (2 * sineUnit)
  rw [← sineQuarter_eq] at hlow hhigh
  generalize (sineSeries k).1 - (sineSeries k).2 = d at hsum hlow hhigh
  have hround : ((2 * 32767 * d + sineUnit : ℕ) : ℝ) / ((2 * sineUnit : ℕ) : ℝ) = 32767 * (d / sineUnit) + 1 / 2 := by
    push_cast
    field_simp
    ring
  rw [hround] at hlow hhigh
  rw [abs_le] at hsum hangle ⊢
  constructor <;> linarith [hsum.1, hsum.2, hangle.1, hangle.2]

/-! The whole turn. -/

/-- The second half turn mirrors the first (R106). -/
theorem sineTable_mirror {k : ℕ} (hk : k < 8192) : sineTable (k + 8192) = -sineTable k := by
  have hmod : (k + 8192) % 4096 = k % 4096 := by omega
  have hdiv : (k + 8192) / 4096 = k / 4096 + 2 := by omega
  have hquarter : k / 4096 = 0 ∨ k / 4096 = 1 := by omega
  rcases hquarter with h | h <;> simp [sineTable, hmod, hdiv, h]

/-- The first half turn: its second quarter is the first one run back (R106). -/
theorem sineTable_near_half {k : ℕ} (hk : k < 8192) :
    |(sineTable k : ℝ) - 32767 * Real.sin (Real.pi * k / 8192)| ≤ 501 / 1000 := by
  rcases Nat.lt_or_ge k 4096 with h | h
  · have htable : sineTable k = sineQuarter k := by
      simp only [sineTable, Nat.div_eq_of_lt h, Nat.mod_eq_of_lt h]
    rw [htable, Int.cast_natCast]
    exact sineQuarter_near h.le
  · have htable : sineTable k = sineQuarter (8192 - k) := by
      have hdiv : k / 4096 = 1 := by omega
      have hmod : 4096 - k % 4096 = 8192 - k := by omega
      simp only [sineTable, hdiv, hmod]
    have hangle : Real.pi * k / 8192 = Real.pi - Real.pi * (8192 - k : ℕ) / 8192 := by
      rw [Nat.cast_sub hk.le]
      push_cast
      ring
    rw [htable, Int.cast_natCast, hangle, Real.sin_pi_sub]
    exact sineQuarter_near (by omega)

/-- The whole turn: a half turn on, the sine and the table change their sign. -/
theorem sineTable_near {k : ℕ} (hk : k < 16384) :
    |(sineTable k : ℝ) - 32767 * Real.sin (Real.pi * k / 8192)| ≤ 501 / 1000 := by
  rcases Nat.lt_or_ge k 8192 with h | h
  · exact sineTable_near_half h
  · obtain ⟨m, rfl⟩ := Nat.exists_eq_add_of_le' h
    have hm : m < 8192 := by omega
    have hangle : Real.pi * (m + 8192 : ℕ) / 8192 = Real.pi * m / 8192 + Real.pi := by
      push_cast
      ring
    rw [sineTable_mirror hm, hangle, Real.sin_add_pi, Int.cast_neg, mul_neg, ← neg_sub', abs_neg]
    exact sineTable_near_half hm

end Sys2Proof.Machine

open Sys2Proof.Machine

/-- Settles O50: the fixed-point series stays beside the sine on the first quarter turn, and symmetry gives the
rest. -/
theorem sineTableRounds : Obligations.SineTableRounds := by
  refine ⟨fun k hk => ?_, fun k hk => sineTable_mirror hk⟩
  have hangle : 2 * Real.pi * k / 16384 = Real.pi * k / 8192 := by ring
  rw [hangle]
  exact sineTable_near hk

end

section
/-! The bounds of the report block (R138, R140 to R142, R147) read a waiting report by its kind and key alone; what
makes, recounts and sends reports keeps them. -/

open Sys2Proof

namespace Sys2Proof.Machine

/-- The kind and key by which a waiting report is known (Table 8-1). -/
def Report.label (q : Report) : Nat × Byte := (reportIndex q.body, reportKey q.body)

/-- The kinds of which at most one waits for each key (Table 8-1). -/
def keyedIndex (n : Nat) : Bool := decide (n ∉ [0, 1, 8, 9, 11])

theorem keyed_eq (r : ReportBody) : keyed r = keyedIndex (reportIndex r) := by cases r <;> rfl

theorem isHopBegin_eq (q : Report) : q.isHopBegin = (q.label.1 == 1) := by
  obtain ⟨r, n⟩ := q
  cases r <;> rfl

theorem sameKey_iff (q x : Report) : sameKey q.body x.body = true ↔ q.label = x.label := by
  simp [sameKey, Report.label]

/-- No two labels of the MERGE and REPLACE kinds are the same. -/
def LabelsApart (ls : List (Nat × Byte)) : Prop := ls.Pairwise fun a b => keyedIndex a.1 = true → b ≠ a

theorem keysApart_iff (qs : List Report) : keysApart qs = true ↔ LabelsApart (qs.map Report.label) := by
  induction qs with
  | nil => simp [keysApart, LabelsApart]
  | cons q rest ih =>
    have hany : (∀ x ∈ rest, sameKey x.body q.body = false) ↔ ∀ x ∈ rest, x.label ≠ q.label := by
      simp only [← Bool.not_eq_true, sameKey_iff, ne_eq]
    rw [keysApart, LabelsApart, List.map_cons, List.pairwise_cons, Bool.and_eq_true, ih]
    refine and_congr_left fun _ => ?_
    rw [keyed_eq, Bool.or_eq_true, Bool.not_eq_true', Bool.not_eq_true', List.any_eq_false]
    simp only [Bool.not_eq_true, hany, List.forall_mem_map]
    cases hk : keyedIndex (reportIndex q.body) <;> simp [Report.label, hk]

/-- A label joins the labels if it is of a kind without keys or is not among them. -/
theorem LabelsApart.join {ls : List (Nat × Byte)} (h : LabelsApart ls) {l : Nat × Byte}
    (hl : keyedIndex l.1 = true → l ∉ ls) : LabelsApart (ls ++ [l]) := by
  refine List.pairwise_append.mpr ⟨h, List.pairwise_singleton _ _, fun a ha b hb hk heq => ?_⟩
  obtain rfl : b = l := by simpa using hb
  exact hl (heq ▸ hk) (heq ▸ ha)

/-- The bounds of the report block, over the labels of what waits. -/
structure ReportBlock.Bounded (b : ReportBlock) (ls : List (Nat × Byte)) : Prop where
  room : ls.length ≤ 16
  lost : b.lost ≤ 65535
  apart : LabelsApart ls
  mask : b.mask &&& ~~~Config.fullMask = 0#16
  begun : b.begun ≤ ls.countP (·.1 == 1)

theorem reportsLawful_iff (b : ReportBlock) : b.lawful = true ↔ b.Bounded (b.queue.map Report.label) := by
  have hcount : b.queue.countP Report.isHopBegin = (b.queue.map Report.label).countP (·.1 == 1) := by
    rw [List.countP_map]
    exact List.countP_congr fun q _ => by simp [isHopBegin_eq]
  simp only [ReportBlock.lawful, ReportBlock.noteLawful, Bool.and_eq_true, decide_eq_true_eq, keysApart_iff,
    beq_iff_eq, hcount]
  exact ⟨fun ⟨⟨⟨⟨h1, h2⟩, h3⟩, h4⟩, h5⟩ => ⟨by simpa [Config.reportCapacity] using h1, h2, h3, h4, h5⟩,
    fun ⟨h1, h2, h3, h4, h5⟩ => ⟨⟨⟨⟨by simpa [Config.reportCapacity] using h1, h2⟩, h3⟩, h4⟩, h5⟩⟩

/-- A report that waits takes another occurrence or other fields without a change of label. -/
theorem updateFirst_labels (r : ReportBody) (f : Report → Report) (qs : List Report)
    (hf : ∀ q : Report, sameKey q.body r = true → (f q).label = q.label) :
    (updateFirst r f qs).map Report.label = qs.map Report.label := by
  induction qs with
  | nil => rfl
  | cons q rest ih =>
    simp only [updateFirst]
    split
    · rename_i hk; simp [hf q hk]
    · simp [ih]

theorem recounted_label (count : BitVec 48) (q : Report) : (q.recounted count).label = q.label := by
  unfold Report.recounted
  split
  · rename_i h; simp [Report.label, h, reportIndex, reportKey]
  · rfl

theorem recountFrom_labels (count : BitVec 48) (n : Nat) (qs : List Report) :
    (recountFrom count n qs).map Report.label = qs.map Report.label := by
  induction qs generalizing n with
  | nil => cases n <;> rfl
  | cons q rest ih =>
    cases n with
    | zero => simp [recountFrom, recounted_label, ih]
    | succ n =>
      simp only [recountFrom]
      split <;> simp [ih]

/-- Everything the report block can make of a report (R137, R139 to R141): it is discarded or takes the completion
place, is lost, joins the tail of a queue in which its label does not wait, or is taken up by one of its label. -/
theorem accept_cases (b : ReportBlock) (r : ReportBody) :
    (∃ done, b.accept r = { b with completion := done }) ∨ b.accept r = b.lose ∨
    (b.queue.length < 16 ∧ (keyed r = true → b.waits r = false) ∧
      b.accept r = { b with queue := b.queue ++ [⟨r, 1⟩] }) ∨
    ∃ qs, qs.map Report.label = b.queue.map Report.label ∧ b.accept r = { b with queue := qs } := by
  have hjoin (hw : keyed r = true → b.waits r = false) : b.join r = b.lose ∨ (b.queue.length < 16 ∧
      (keyed r = true → b.waits r = false) ∧ b.join r = { b with queue := b.queue ++ [⟨r, 1⟩] }) := by
    unfold ReportBlock.join
    split
    · rename_i hroom; exact .inr ⟨hroom, hw, rfl⟩
    · exact .inl rfl
  have hkeep (hc : reportClass r = .keep) : keyed r = true → b.waits r = false := fun hk => by
    simp [keyed, hc] at hk
  unfold ReportBlock.accept
  repeat' split
  · exact .inl ⟨_, rfl⟩
  · exact .inl ⟨_, rfl⟩
  · exact .inl ⟨_, rfl⟩
  · rename_i hc
    exact .inr ((hjoin (hkeep hc)).imp id .inl)
  · exact .inr (.inr (.inr ⟨_, updateFirst_labels r Report.repeated _ fun _ _ => rfl, rfl⟩))
  · rename_i hw
    exact .inr ((hjoin fun _ => by simpa using hw).imp id .inl)
  · refine .inr (.inr (.inr ⟨_, updateFirst_labels r _ _ fun q hq => ?_, rfl⟩))
    exact ((sameKey_iff q ⟨r, q.repeats⟩).mp hq).symm
  · rename_i hw
    exact .inr ((hjoin fun _ => by simpa using hw).imp id .inl)

/-- The note of the period rises by no more than what joins. -/
theorem note_eq (b before : ReportBlock) (r : ReportBody) : b.note before r = { b with
    begun := b.begun + if reportIndex r = 1 then b.queue.length - before.queue.length else 0 } := by
  cases r <;> rfl

/-- A report that is made keeps the bounds of the report block. -/
theorem make_lawful {b : ReportBlock} (h : b.lawful = true) (r : ReportBody) : (b.make r).lawful = true := by
  have hb := (reportsLawful_iff b).mp h
  rw [reportsLawful_iff, ReportBlock.make, note_eq]
  rcases accept_cases b r with ⟨done, ha⟩ | ha | ⟨hroom, hw, ha⟩ | ⟨qs, hqs, ha⟩ <;> rw [ha]
  · exact { hb with begun := by simpa using hb.begun }
  · exact { hb with lost := by simp [ReportBlock.lose], begun := by simpa [ReportBlock.lose] using hb.begun }
  · have hnew : keyedIndex (reportIndex r) = true → (⟨r, 1⟩ : Report).label ∉ b.queue.map Report.label := by
      intro hk hmem
      obtain ⟨q, hq, hlabel⟩ := List.mem_map.mp hmem
      have hno := List.any_eq_false.mp (hw ((keyed_eq r).trans hk)) q hq
      exact hno ((sameKey_iff q ⟨r, 1⟩).mpr hlabel)
    simp only [List.map_append, List.map_cons, List.map_nil]
    refine { hb with room := by simpa using hroom, apart := hb.apart.join hnew, begun := ?_ }
    have hbegun := hb.begun
    rw [List.countP_append]
    by_cases hr : reportIndex r = 1 <;> simpa [Report.label, hr] using hbegun
  · have hlen : qs.length = b.queue.length := by simpa using congrArg List.length hqs
    simp only [hqs, hlen]
    exact { hb with begun := by simpa using hb.begun }

/-- Another count of the HOP_BEGINs that wait keeps the bounds. -/
theorem recount_lawful {b : ReportBlock} (h : b.lawful = true) (count : BitVec 48) :
    (b.recount count).lawful = true := by
  have hb := (reportsLawful_iff b).mp h
  rw [reportsLawful_iff, ReportBlock.recount, recountFrom_labels]
  exact { hb with }

/-- The head that leaves makes room for REPORTS_LOST (R142). -/
theorem departHead_lawful {b : ReportBlock} {r : Report} {rest : List Report} (h : b.lawful = true)
    (hq : b.queue = r :: rest) : b.departHead.lawful = true := by
  have hb := (reportsLawful_iff b).mp h
  rw [hq, List.map_cons] at hb
  have hroom : rest.length + 1 ≤ 16 := by simpa using hb.room
  have hapart : LabelsApart (rest.map Report.label) := (List.pairwise_cons.mp hb.apart).2
  have hcount : min b.begun (rest.countP Report.isHopBegin) ≤ (rest.map Report.label).countP (·.1 == 1) := by
    rw [List.countP_map, show Report.isHopBegin = (·.1 == 1) ∘ Report.label from funext isHopBegin_eq]
    exact Nat.min_le_right _ _
  have hlost : keyedIndex (⟨.reportsLost b.lost, 1⟩ : Report).label.1 = true →
      (⟨.reportsLost b.lost, 1⟩ : Report).label ∉ rest.map Report.label := fun hk => by
    simp [Report.label, keyedIndex, reportIndex] at hk
  rw [reportsLawful_iff]
  simp only [ReportBlock.departHead, hq, List.tail_cons]
  split
  · simp only [List.map_append, List.map_cons, List.map_nil]
    exact ⟨by simpa using hroom, Nat.zero_le _, hapart.join hlost, hb.mask,
       by rw [List.countP_append]; exact Nat.le_add_right_of_le hcount⟩
  · exact ⟨by simpa using Nat.le_of_succ_le hroom, Nat.zero_le _, hapart, hb.mask, hcount⟩

/-- A block of the same queue, lost count, mask and note has the same bounds. -/
theorem reportsLawful_congr {b b' : ReportBlock} (h : b.lawful = true) (hq : b'.queue = b.queue)
    (hl : b'.lost = b.lost) (hm : b'.mask = b.mask) (hb : b'.begun = b.begun) : b'.lawful = true := by
  simpa [ReportBlock.lawful, ReportBlock.noteLawful, hq, hl, hm, hb] using h

end Sys2Proof.Machine
end

section
/-! A request row is a frame of bytes: the owner's reading of the payload gives back the row's fields (R115, R130,
Table 7-7). -/

open Sys2Proof

namespace Sys2Proof.Machine

variable {s e : State} {i : Instr} {r : Req} {k : Kind} {payload : List Byte}

/-! The owner's reading of a row's payload. -/

theorem kindOf_kindCode (k : Kind) : kindOf (kindCode k) = some k := by cases k <;> rfl

theorem ownerOf_slotSet (index : Byte) (word : BitVec 32) (offset : BitVec 16) (label : List Byte) (seq : Byte)
    (wp : Bool) : ownerOf .slotSet (slotSetPayload index word offset label) seq wp =
      opSlotSet index word offset label := by
  have hw : u32At (byteAt (slotSetPayload index word offset label)) 1 = word :=
    (congrArg₂ (· ++ ·) (u16_of_be16 _) (u16_of_be16 _)).trans (u32_of_be32 word)
  have ho : u16At (byteAt (slotSetPayload index word offset label)) 5 = offset := u16_of_be16 offset
  simp only [ownerOf, hw, ho]
  rfl

theorem ownerOf_channelConfig (channel policy cycle edge : Byte) (ramp : BitVec 16) (follow : Byte)
    (pairTimeout : BitVec 24) (seq : Byte) (wp : Bool) :
    ownerOf .channelConfig (channelConfigPayload channel policy cycle edge ramp follow pairTimeout) seq wp =
      opChannelConfig channel policy cycle edge ramp follow pairTimeout := by
  have hr : u16At (byteAt (channelConfigPayload channel policy cycle edge ramp follow pairTimeout)) 4 = ramp :=
    u16_of_be16 ramp
  have hp : u24At (byteAt (channelConfigPayload channel policy cycle edge ramp follow pairTimeout)) 7 =
      pairTimeout := u24_of_be24 pairTimeout
  simp only [ownerOf, hr, hp]
  rfl

theorem ownerOf_reportConfig (mask : BitVec 16) (seq : Byte) (wp : Bool) :
    ownerOf .reportConfig (be16 mask) seq wp = opReportConfig mask := by
  have hm : u16At (byteAt (be16 mask)) 0 = mask := u16_of_be16 mask
  simp only [ownerOf, hm]

theorem ownerOf_storeRead (area : Byte) (offset : BitVec 16) (length seq : Byte) (wp : Bool) :
    ownerOf .storeRead (area :: be16 offset ++ [length]) seq wp = opStoreRead area offset length := by
  have ho : u16At (byteAt (area :: be16 offset ++ [length])) 1 = offset := u16_of_be16 offset
  simp only [ownerOf, ho]
  rfl

/-- A request row runs the owner's operation on the payload its fields make (Table 7-7). -/
theorem exec_row (h : requestOf i = some (r, k, payload)) (s : State) :
    exec i s = .next (s.request r k payload (ownerOf k payload r.seq r.pins.wp)) := by
  cases i with
  | slotSet => cases h; rw [ownerOf_slotSet]; rfl
  | channelConfig => cases h; rw [ownerOf_channelConfig]; rfl
  | reportConfig => cases h; rw [ownerOf_reportConfig]; rfl
  | storeRead => cases h; rw [ownerOf_storeRead]; rfl
  | _ => cases h <;> rfl

/-- A request row has the effect of its frame's bytes, its own payload or a raw one. -/
theorem exec_row_bytes (h : requestOf i = some (r, k, payload)) (hd : s.link.deaf = false) :
    exec i s = .next
      ((s.frameEnds r.pins).acceptBytes (kindCode k) r.seq (r.raw.getD payload) r.pins.wp) := by
  rw [exec_row h]
  cases hraw : r.raw <;> simp [State.request, hd, hraw, State.acceptBytes, kindOf_kindCode]

/-- A deaf receiver takes no request of any row (R128). -/
theorem exec_row_deaf (h : requestOf i = some (r, k, payload)) (hd : s.link.deaf = true) : exec i s = .next s := by
  rw [exec_row h, request_deaf hd]

/-- A frame of a request's kind or of an unknown one has the effect of its bytes (R115, R116). -/
theorem exec_frame_bytes {pins : Pins} {kind seq : Byte} (h : frameOf i = some (pins, kind, seq, payload))
    (hd : s.link.deaf = false) : exec i s = .next ((s.frameEnds pins).acceptBytes kind seq payload pins.wp) := by
  have row {j : Instr} (hj : (requestOf j).map (fun q => (q.1.pins, kindCode q.2.1, q.1.seq, q.1.raw.getD q.2.2)) =
      some (pins, kind, seq, payload)) :
      exec j s = .next ((s.frameEnds pins).acceptBytes kind seq payload pins.wp) := by
    obtain ⟨⟨r, k, p⟩, hr, he⟩ := Option.map_eq_some_iff.mp hj
    cases he
    exact exec_row_bytes hr hd
  cases i with
  | unknownKind sq ps kd pl =>
    simp only [frameOf, Option.ite_none_right_eq_some] at h
    obtain ⟨hk, he⟩ := h
    cases he
    simp [exec, execUnknownKind, hd, State.acceptBytes, hk]
  | _ => exact row h

/-! The answers that change nothing. -/

/-- The receiver is as deaf in the state in which a frame is executed as before. -/
theorem frameEnds_deaf (s : State) (pins : Pins) : (s.frameEnds pins).link.deaf = s.link.deaf :=
  congrArg Held.deaf (held_frameEnds s pins)

/-- A new frame that finds a reply slot free is answered by its owner, after the length check (R115, R132). -/
theorem acceptKind_fresh {seq : Byte} (hl : e.link.lookup seq (frameCheck (kindCode k) seq payload) = .fresh)
    (hr : e.link.roomy = true) (op : State → State × List Byte) : e.acceptKind k seq payload op =
      (e.execute seq (frameCheck (kindCode k) seq payload) (answer k seq payload op)).finish := by
  simp [State.acceptKind, State.acceptFrame, hl, hr]

/-- A payload of a wrong length is answered BAD_LENGTH (R132). -/
theorem answer_badLength {seq : Byte} (hf : lengthFits k payload = false) (op : State → State × List Byte) :
    answer k seq payload op e = (e, mkFrame (replyKind k) seq [0x10#8]) := by
  simp [answer, hf, statusCode]

/-- A code that has no row is answered BAD_VALUE (R133). -/
theorem ownerOf_badCode (hc : codesOf k ≠ []) (hp : byteAt payload (codeAt k) ∉ codesOf k) (seq : Byte) (wp : Bool) :
    ownerOf k payload seq wp e = (e, [0x11#8]) := by
  cases k with
  | reset | epoch | stop | gate =>
    simp only [codesOf, codeAt, List.mem_cons, List.not_mem_nil, or_false, not_or] at hp
    simp [ownerOf, opResetScope, opEpochMode, opStopMode, opGateAction, hp, refuse, statusCode]
  | _ => exact absurd rfl hc

end Sys2Proof.Machine

open Sys2Proof.Machine

/-- Settles O53: the owner reads the row's fields back from the payload, and the two refusals come before anything
is changed. -/
theorem rowsAreTheirBytes : Obligations.RowsAreTheirBytes := by
  intro i r k payload hi s hd e p answered
  have hx : exec i s = .next (e.acceptBytes (kindCode k) r.seq p r.pins.wp) := exec_row_bytes hi hd
  have hdeaf : e.link.deaf = false := (frameEnds_deaf s r.pins).trans hd
  refine ⟨hx, fun hl hr => ?_⟩
  have hans {st : Byte} (ha : answer k r.seq p (ownerOf k p r.seq r.pins.wp) e =
      (e, mkFrame (replyKind k) r.seq [st])) : answered st := by
    show exec i s = _
    rw [hx, State.acceptBytes, kindOf_kindCode]
    simp only [acceptKind_fresh hl hr, State.execute, ha, hdeaf]
  refine ⟨fun hf => hans (answer_badLength hf _), fun hf hc hp => hans ?_⟩
  rw [answer, if_pos hf, ownerOf_badCode hc hp]

end

section
/-! The general requests of the link (R123 to R128): what PING, IDENTIFY, STATUS and RESET FULL answer, and the deaf
receiver. -/

open Sys2Proof

namespace Sys2Proof.Machine

variable {s e : State}

theorem opIdentify_eq (s : State) : opIdentify s = (s,
    [0x00#8, 0x04#8, 0x82#8, 1#8, 48#8, 2#8, 64#8, 8#8, 0x10#8, 0x00#8] ++
      match s.link.rate with
      | .r115200 => [0x00#8, 0x01#8, 0xC2#8, 0x00#8]
      | .r460800 => [0x00#8, 0x07#8, 0x08#8, 0x00#8]
      | .r921600 => [0x00#8, 0x0E#8, 0x10#8, 0x00#8]
      | .r2000000 => [0x00#8, 0x1E#8, 0x84#8, 0x80#8]) := by
  unfold opIdentify
  cases s.link.rate <;> rfl

/-- The two bytes of a count (spec 00, Byte order). -/
theorem be16_ofNat (n : Nat) : be16 (BitVec.ofNat 16 n) = [b8 (n / 256), b8 n] := by
  simp only [be16, b8, List.cons.injEq, and_true]
  constructor
  · apply BitVec.eq_of_toNat_eq
    simp only [BitVec.extractLsb'_toNat, BitVec.toNat_ofNat, Nat.shiftRight_eq_div_pow]
    omega
  · apply BitVec.eq_of_toNat_eq
    simp only [BitVec.extractLsb'_toNat, BitVec.toNat_ofNat, Nat.shiftRight_eq_div_pow]
    omega

theorem opStatus_eq (s : State) : opStatus s = (s,
    [0x00#8, chanStateCode s.chA.st, b8 s.chA.queue.length, gateStateCode s.chA.gate.st,
      chanStateCode s.chB.st, b8 s.chB.queue.length, gateStateCode s.chB.gate.st,
      armCode s.epoch.arm, engineCode s.store.engine, b8 s.reports.queue.length,
      b8 (s.reports.lost / 256), b8 s.reports.lost]) := by
  simp [opStatus, answerOk, statusChannel, statusCode, be16_ofNat]

theorem opResetFull_taken (h : e.store.engine = .idle ∨ e.store.engine = .reading) :
    opResetFull e = ({ e with link := { e.link with deaf := true } }, [0x00#8]) := by
  rcases h with h | h <;> simp [opResetFull, EngineState.refusesReset, h, answerOk, statusCode]

theorem opResetFull_busy (h : e.store.engine ≠ .idle ∧ e.store.engine ≠ .reading) :
    opResetFull e = (e, [0x30#8]) := by
  obtain ⟨hi, hr⟩ := h
  have hb : e.store.engine.refusesReset = true := by
    cases he : e.store.engine <;> first | rfl | exact absurd he hi | exact absurd he hr
  simp [opResetFull, hb, refuse, statusCode]

end Sys2Proof.Machine

open Sys2Proof.Machine

/-- Settles O11: PING's owner answers with the payload and the state as they are. -/
theorem pingEchoes : Obligations.PingEchoes := by
  intro s r data h
  exact congrArg Host.Outcome.next (request_answers h rfl)

/-- Settles O12: the fixed values, and one case for each link rate. -/
theorem identifyAnswers : Obligations.IdentifyAnswers := by
  intro s r h
  exact congrArg Host.Outcome.next (request_answers h (opIdentify_eq _))

/-- Settles O13: the snapshot read field by field. -/
theorem statusAnswers : Obligations.StatusAnswers := by
  intro s r h
  exact congrArg Host.Outcome.next (request_answers h (opStatus_eq _))

/-- Settles O15: RESET FULL by the engine's state, and each row that reads the receiver's deafness first. -/
theorem resetFullAndDeafness : Obligations.ResetFullAndDeafness := by
  refine ⟨fun s r h => ⟨fun he => ?_, fun he => ?_⟩, fun s hd => ⟨fun i r k p hi => exec_row_deaf hi hd, ?_⟩⟩
  · exact congrArg Host.Outcome.next (request_answers h (opResetFull_taken he))
  · exact congrArg Host.Outcome.next (request_answers h (opResetFull_busy he))
  · simp [exec, execUnknownKind, execByteReceived, execLengthFault, execCheckFault, execInterbyteTimeout, execRxBreak,
      hd]

end

section
/-! The retry lookup and the window (R115, R116, R118, R119, R121). -/

open Sys2Proof

namespace Sys2Proof.Machine

variable {e : State} {kind seq : Byte} {payload : List Byte} {wp : Bool}

/-- What an accepted frame runs: its kind's owner after the length check, or the refusal of an unknown kind. -/
def frameRun (kind seq : Byte) (payload : List Byte) (wp : Bool) : State → State × List Byte :=
  match kindOf kind with
  | some k => answer k seq payload (ownerOf k payload seq wp)
  | none => answerUnknown kind seq

/-- Frames of every kind pass through the same steps (R115, R116). -/
theorem acceptBytes_eq (e : State) (kind seq : Byte) (payload : List Byte) (wp : Bool) :
    e.acceptBytes kind seq payload wp =
      (e.acceptFrame kind seq payload (frameRun kind seq payload wp)).finish := by
  unfold State.acceptBytes frameRun
  cases hk : kindOf kind with
  | none => rfl
  | some k => simp only [State.acceptKind, kindCode_of_kindOf hk]

/-- A reply of this sequence and check value waits or is being sent. -/
def Link.answering (l : Link) (seq : Byte) (check : BitVec 16) : Bool :=
  l.waiting.any (Outgoing.answers seq check) || l.tx.any (Outgoing.answers seq check)

theorem answers_iff (check : BitVec 16) (o : Outgoing) :
    o.answers seq check = true ↔ ∃ q : Reply, o = .reply q ∧ q.seq = seq ∧ q.check = check := by
  cases o <;> simp [Outgoing.answers]

theorem answering_iff (l : Link) (seq : Byte) (check : BitVec 16) : l.answering seq check = true ↔
    ∃ q : Reply, (.reply q ∈ l.waiting ∨ l.tx = some (.reply q)) ∧ q.seq = seq ∧ q.check = check := by
  simp only [Link.answering, Bool.or_eq_true, List.any_eq_true, Option.any_eq_true, answers_iff]
  constructor
  · rintro (⟨o, ho, q, rfl, hq⟩ | ⟨o, ho, q, rfl, hq⟩)
    · exact ⟨q, .inl ho, hq⟩
    · exact ⟨q, .inr ho, hq⟩
  · rintro ⟨q, hw | ht, hq⟩
    · exact .inl ⟨_, hw, q, rfl, hq⟩
    · exact .inr ⟨_, ht, q, rfl, hq⟩

theorem answering_false {l : Link} {check : BitVec 16}
    (h : ∀ q : Reply, .reply q ∈ l.waiting ∨ l.tx = some (.reply q) → ¬(q.seq = seq ∧ q.check = check)) :
    l.answering seq check = false := by
  rw [← Bool.not_eq_true, answering_iff]
  exact fun ⟨q, hq, hs⟩ => h q hq hs

/-- The lookup of a sequence above 0, in the order of Table 6-5. -/
theorem lookup_eq (l : Link) (hs : seq ≠ 0#8) (check : BitVec 16) : l.lookup seq check =
    if l.answering seq check then .pending
    else match l.cache.find? (fun x => x.seq == seq) with
      | none => .fresh
      | some old => if old.check = check then .replay old.frame else .displace := if_neg hs

theorem lookup_pending (l : Link) (hs : seq ≠ 0#8) {check : BitVec 16} (h : l.answering seq check = true) :
    l.lookup seq check = .pending := by rw [lookup_eq l hs, if_pos h]

theorem lookup_cached (l : Link) (hs : seq ≠ 0#8) {check : BitVec 16} (h : l.answering seq check = false)
    {old : CacheEntry} (hc : l.cache.find? (fun x => x.seq == seq) = some old) :
    l.lookup seq check = if old.check = check then .replay old.frame else .displace := by
  simp only [lookup_eq l hs, h, hc, Bool.false_eq_true, if_false]

theorem lookup_uncached (l : Link) {check : BitVec 16} (h : l.answering seq check = false)
    (hc : l.cache.find? (fun x => x.seq == seq) = none) : l.lookup seq check = .fresh := by
  by_cases hs : seq = 0#8
  · simp [Link.lookup, hs]
  · simp only [lookup_eq l hs, h, hc, Bool.false_eq_true, if_false]

theorem find_cacheWithout (seq : Byte) (cache : List CacheEntry) :
    (cacheWithout seq cache).find? (fun x => x.seq == seq) = none := by
  simp [cacheWithout]

theorem roomy_iff (l : Link) : l.roomy = true ↔ l.waiting.countP Outgoing.isReply < 4 :=
  decide_eq_true_iff

/-- A repeat of a request whose reply waits or is being sent is dropped (R121). -/
theorem acceptFrame_pending (hl : e.link.lookup seq (frameCheck kind seq payload) = .pending)
    (run : State → State × List Byte) : e.acceptFrame kind seq payload run = e := by
  simp only [State.acceptFrame, hl]

/-- A repeat of a request in the cache is answered with the cached frame (R121). -/
theorem acceptFrame_replay {frame : List Byte}
    (hl : e.link.lookup seq (frameCheck kind seq payload) = .replay frame) (hr : e.link.roomy = true)
    (run : State → State × List Byte) : e.acceptFrame kind seq payload run = e.place
      (.reply { seq := seq, check := frameCheck kind seq payload, frame := frame, full := false }) := by
  simp only [State.acceptFrame, hl, hr, if_true]

/-- With no reply slot free, a frame that is no repeat of a pending one and displaces no entry is refused (R118). -/
theorem acceptFrame_full (hr : e.link.roomy = false)
    (hl : e.link.lookup seq (frameCheck kind seq payload) = .fresh ∨
      ∃ frame, e.link.lookup seq (frameCheck kind seq payload) = .replay frame)
    (run : State → State × List Byte) : e.acceptFrame kind seq payload run = e.refuseWindow kind seq := by
  rcases hl with hl | ⟨frame, hl⟩ <;> simp [State.acceptFrame, hl, hr]

theorem refusalWaits_iff (l : Link) : l.refusalWaits = true ↔ ∃ f, .refusal f ∈ l.waiting := by
  rw [Link.refusalWaits, List.any_eq_true]
  constructor
  · rintro ⟨o, ho, hr⟩
    cases o with
    | refusal f => exact ⟨f, ho⟩
    | reply | report => cases hr
  · rintro ⟨f, hf⟩
    exact ⟨_, hf, rfl⟩

/-- A stale cache entry leaves, and the frame goes on as a new one (R121). -/
theorem acceptFrame_displaced (hl : e.link.lookup seq (frameCheck kind seq payload) = .displace)
    (hn : e.link.answering seq (frameCheck kind seq payload) = false) (run : State → State × List Byte) :
    e.acceptFrame kind seq payload run = State.acceptFrame
      { e with link := { e.link with cache := cacheWithout seq e.link.cache } } kind seq payload run := by
  have hf : Link.lookup { e.link with cache := cacheWithout seq e.link.cache } seq
      (frameCheck kind seq payload) = .fresh :=
    lookup_uncached _ hn (find_cacheWithout seq _)
  simp only [State.acceptFrame, hl, hf]
  rfl

end Sys2Proof.Machine

open Sys2Proof.Machine

/-- Settles O54: each clause is a case of the lookup, with or without a free reply slot. -/
theorem retryAndWindow : Obligations.RetryAndWindow := by
  refine ⟨fun i pins kind seq payload hi s hd => exec_frame_bytes hi hd, ?_⟩
  intro e kind seq payload wp check held same cached
  simp only [acceptBytes_eq]
  refine ⟨fun q hs hq hsame => ?_, fun hn hs old hc hk hw => ?_, fun hn hs old hc hk => ?_, fun hl hw => ?_⟩
  · have ha := lookup_pending e.link hs ((answering_iff _ _ check).mpr ⟨q, hq, hsame⟩)
    rw [acceptFrame_pending ha]
  · have ha := lookup_cached e.link hs (answering_false hn) hc
    rw [if_pos hk] at ha
    rw [acceptFrame_replay ha ((roomy_iff _).mpr hw)]
  · have ha := lookup_cached e.link hs (answering_false hn) hc
    rw [if_neg hk] at ha
    rw [acceptFrame_displaced ha (answering_false hn)]
    rfl
  · have hr : e.link.roomy = false := by
      rw [← Bool.not_eq_true, roomy_iff]
      exact Nat.not_lt.mpr hw
    have hfull : e.link.lookup seq check = .fresh ∨ ∃ frame, e.link.lookup seq check = .replay frame := by
      by_cases hs : seq = 0#8
      · exact .inl (by simp [Link.lookup, hs])
      · obtain ⟨hn, hold⟩ := hl.resolve_left hs
        cases hc : e.link.cache.find? (fun x => x.seq == seq) with
        | none => exact .inl (lookup_uncached _ (answering_false hn) hc)
        | some old => exact .inr ⟨old.frame, by rw [lookup_cached _ hs (answering_false hn) hc, if_pos (hold old hc)]⟩
    rw [acceptFrame_full hr hfull, State.refuseWindow]
    refine ⟨fun hno => ?_, fun hf => ?_⟩
    · rw [if_neg (mt (refusalWaits_iff _).mp (not_exists.mpr hno))]
      rfl
    · rw [if_pos ((refusalWaits_iff _).mpr hf)]
      rfl

end

section
/-! The receiver byte by byte (R111 to R114, Table 6-2), and a whole frame's bytes (R115, Table 7-1). -/

open Sys2Proof

namespace Sys2Proof.Machine

variable {s : State} {b kind seq : Byte} {payload : List Byte} {pins : Pins}

/-! A fault, and a byte that is taken. -/

/-- The state after a fault of the receiver (Table 6-3). -/
theorem receiverFault_eq (s : State) (reason : FaultReason) : s.receiverFault reason = State.finish
    { s with link := { s.link with rx := .hunt, buf := [] },
             reports := s.reports.make (.linkFault reason) } := rfl

theorem exec_byte (hd : s.link.deaf = false) (b : Byte) (pins : Pins) :
    exec (.byteReceived true b pins) s = .next (s.takeByte b pins) := by
  simp [exec, execByteReceived, hd]

/-- In HUNT the lead byte begins a frame and every other byte is dropped. -/
theorem takeByte_hunt (hx : s.link.rx = .hunt) :
    s.takeByte b pins = if b = 0xD3#8 then s.receive .length [] else s := by
  simp only [State.takeByte, hx]; rfl

theorem takeByte_length (hx : s.link.rx = .length) : s.takeByte b pins =
    if 240 < b.toNat then s.receiverFault .length else s.receive .kind (s.link.buf ++ [b]) := by
  simp only [State.takeByte, hx]; rfl

theorem takeByte_kind (hx : s.link.rx = .kind) : s.takeByte b pins = s.receive .seq (s.link.buf ++ [b]) := by
  simp only [State.takeByte, hx]

theorem takeByte_seq {n : Byte} (hx : s.link.rx = .seq) (hb : s.link.buf = [n, kind]) :
    s.takeByte b pins = s.receive (if n = 0#8 then .checkHi else .payload) [n, kind, b] := by
  simp [State.takeByte, hx, hb, byteAt]

theorem takeByte_payload {n : Byte} {data : List Byte} (hx : s.link.rx = .payload)
    (hb : s.link.buf = n :: kind :: seq :: data) : s.takeByte b pins =
      s.receive (if data.length + 1 = n.toNat then .checkHi else .payload) (n :: kind :: seq :: data ++ [b]) := by
  have hlen : (n :: kind :: seq :: data ++ [b]).length = 3 + n.toNat ↔ data.length + 1 = n.toNat := by
    simp only [List.cons_append, List.length_cons, List.length_append, List.length_nil]
    omega
  simp only [State.takeByte, hx, hb]
  congr 1
  exact if_congr hlen rfl rfl

theorem takeByte_checkHi (hx : s.link.rx = .checkHi) :
    s.takeByte b pins = s.receive .checkLo (s.link.buf ++ [b]) := by
  simp only [State.takeByte, hx]

/-- The last byte of a frame: the frame is accepted if its check value matches (R111). -/
theorem takeByte_last {hi : Byte} (hx : s.link.rx = .checkLo)
    (hb : s.link.buf = b8 payload.length :: kind :: seq :: payload ++ [hi]) : s.takeByte b pins =
      if hi ++ b = frameCheck kind seq payload then (s.frameEnds pins).acceptBytes kind seq payload pins.wp
      else s.receiverFault .check := by
  let body := b8 payload.length :: kind :: seq :: payload
  have hbuf : s.link.buf ++ [b] = body ++ [hi, b] := by simp [hb, body]
  have htake : (body ++ [hi, b]).take ((body ++ [hi, b]).length - 2) = body := by simp
  have hcheck : u16At (byteAt (body ++ [hi, b])) ((body ++ [hi, b]).length - 2) = hi ++ b := by
    simp [u16At, byteAt]
  simp only [takeByte_checkLo hx, hbuf, State.checkFrame, htake, hcheck, eq_comm (b := hi ++ b)]
  rfl

/-! A whole frame. -/

theorem runAll_cons {i : Instr} {rest : List Instr} {t : State} (h : exec i s = .next t) :
    runAll (i :: rest) s = runAll rest t := by simp only [runAll, h]

/-- The bytes of a frame as the receiver takes them. -/
def bytesIn (pins : Pins) (bs : List Byte) : List Instr := bs.map fun b => .byteReceived true b pins

theorem runAll_byte {t : State} {bs : List Byte} (hd : s.link.deaf = false) (h : s.takeByte b pins = t) :
    runAll (bytesIn pins (b :: bs)) s = runAll (bytesIn pins bs) t :=
  runAll_cons (by rw [exec_byte hd, h])

/-- The payload that is left, byte by byte, up to the check value. -/
theorem runAll_payload {n : Byte} (rest : List Byte) : ∀ {data : List Byte} {rx : RxState},
    s.link.deaf = false → data.length + rest.length = n.toNat →
    rx = (if data.length = n.toNat then .checkHi else .payload) → ∀ tail : List Byte,
    runAll (bytesIn pins (rest ++ tail)) (s.receive rx (n :: kind :: seq :: data)) =
      runAll (bytesIn pins tail) (s.receive .checkHi (n :: kind :: seq :: data ++ rest)) := by
  induction rest with
  | nil =>
    intro data rx hd hn hx tail
    rw [if_pos (by simpa using hn)] at hx
    simp [hx]
  | cons b rest ih =>
    intro data rx hd hn hx tail
    simp only [List.length_cons] at hn
    rw [if_neg (by omega)] at hx
    have hstep := takeByte_payload (s := s.receive rx (n :: kind :: seq :: data)) (b := b) (pins := pins) hx rfl
    rw [List.cons_append, runAll_byte (s := s.receive rx _) hd hstep]
    have hrest := ih (data := data ++ [b]) hd (by simp; omega) rfl tail
    simp only [List.length_append, List.length_cons, List.length_nil, List.append_assoc, List.cons_append,
      List.nil_append, Nat.zero_add] at hrest
    exact hrest

/-- A receiver in HUNT that takes a frame's bytes accepts the frame (R111, R115). -/
theorem runAll_frame (hd : s.link.deaf = false) (hx : s.link.rx = .hunt) (hn : payload.length ≤ 240) :
    runAll (bytesIn pins (mkFrame kind seq payload)) s =
      .next ((s.frameEnds pins).acceptBytes kind seq payload pins.wp) := by
  have hlen : (b8 payload.length).toNat = payload.length := by
    simp only [b8, BitVec.toNat_ofNat]
    omega
  have hzero : (if b8 payload.length = 0#8 then RxState.checkHi else .payload) =
      if ([] : List Byte).length = (b8 payload.length).toNat then .checkHi else .payload := by
    refine if_congr ?_ rfl rfl
    rw [BitVec.toNat_eq, List.length_nil, eq_comm]
    rfl
  let n := b8 payload.length
  let check := frameCheck kind seq payload
  have hlead : s.takeByte 0xD3#8 pins = s.receive .length [] := (takeByte_hunt hx).trans (if_pos rfl)
  have hlength : (s.receive .length []).takeByte n pins = s.receive .kind [n] :=
    (takeByte_length rfl).trans (if_neg (by rw [hlen]; exact Nat.not_lt.mpr hn))
  have hlast : (s.receive .checkLo (n :: kind :: seq :: payload ++ [check.extractLsb' 8 8])).takeByte
      (check.extractLsb' 0 8) pins = (s.frameEnds pins).acceptBytes kind seq payload pins.wp :=
    (takeByte_last rfl rfl).trans (if_pos (u16_of_be16 check))
  calc runAll (bytesIn pins (mkFrame kind seq payload)) s
    _ = runAll (bytesIn pins (n :: kind :: seq :: (payload ++ be16 check))) (s.receive .length []) :=
      runAll_byte hd hlead
    _ = runAll (bytesIn pins (kind :: seq :: (payload ++ be16 check))) (s.receive .kind [n]) :=
      runAll_byte (s := s.receive .length []) hd hlength
    _ = runAll (bytesIn pins (seq :: (payload ++ be16 check))) (s.receive .seq [n, kind]) :=
      runAll_byte (s := s.receive .kind [n]) hd (takeByte_kind rfl)
    _ = runAll (bytesIn pins (payload ++ be16 check))
          (s.receive (if n = 0#8 then .checkHi else .payload) [n, kind, seq]) :=
      runAll_byte (s := s.receive .seq [n, kind]) hd (takeByte_seq rfl rfl)
    _ = runAll (bytesIn pins (be16 check)) (s.receive .checkHi (n :: kind :: seq :: payload)) :=
      runAll_payload payload hd (by simp [hlen]) hzero _
    _ = runAll (bytesIn pins [check.extractLsb' 0 8])
          (s.receive .checkLo (n :: kind :: seq :: payload ++ [check.extractLsb' 8 8])) :=
      runAll_byte (s := s.receive .checkHi _) hd (takeByte_checkHi rfl)
    _ = .next ((s.frameEnds pins).acceptBytes kind seq payload pins.wp) :=
      runAll_byte (s := s.receive .checkLo _) hd hlast

end Sys2Proof.Machine

open Sys2Proof.Machine

/-- Settles O51: the receiver's states one by one, and the rows that fault. -/
theorem receiverRows : Obligations.ReceiverRows := by
  intro s hd faulted moved
  refine ⟨fun b p => ?_, fun n hn => ?_, fun kind seq payload check hc => ?_, fun hx => ?_, fun hx => ?_, ?_,
    fun seq p kind payload hk hl hr => ?_⟩
  · simp only [exec_byte hd]
    refine ⟨?_, fun hx hb => ?_, fun hx hb => ?_, fun hx hb => ?_, fun hx hb => ?_, fun hx => ?_,
      fun n kind hx hb => ?_, fun n kind seq data hx hb => ?_, fun hx => ?_,
      fun kind seq payload hi hx hb => ⟨fun hc => ?_, fun hc => ?_⟩⟩
    · simp [exec, execByteReceived]
    · rw [takeByte_hunt hx, if_neg hb]
    · rw [takeByte_hunt hx, if_pos hb]; rfl
    · rw [takeByte_length hx, if_neg (Nat.not_lt.mpr hb)]; rfl
    · rw [takeByte_length hx, if_pos hb, receiverFault_eq]
    · rw [takeByte_kind hx]; rfl
    · rw [takeByte_seq hx hb]; rfl
    · rw [takeByte_payload hx hb]; rfl
    · rw [takeByte_checkHi hx]; rfl
    · rw [takeByte_last hx hb, if_neg hc, receiverFault_eq]
    · rw [takeByte_last hx hb, if_pos hc]
  · simp [exec, execLengthFault, hd, Config.maxPayload, Nat.not_le.mpr hn, receiverFault_eq, faulted]
  · simp [exec, execCheckFault, hd, hc, receiverFault_eq, faulted]
  · simp [exec, execInterbyteTimeout, hd, hx, receiverFault_eq, faulted]
  · simp [exec, execInterbyteTimeout, hx]
  · simp [exec, execRxBreak, hd, receiverFault_eq, faulted]
  · have hdeaf : (s.frameEnds p).link.deaf = false := (frameEnds_deaf s p).trans hd
    have hf : frameOf (.unknownKind seq p kind payload) = some (p, kind, seq, payload) := if_pos hk
    rw [exec_frame_bytes hf hd, acceptBytes_eq]
    simp [State.acceptFrame, hl, hr, frameRun, hk, State.execute, answerUnknown, refusalFrame, statusCode, hdeaf]

/-- Settles O52: the lead byte, the length, kind and sequence, the payload by induction, and the check value. -/
theorem frameBytesAreAccepted : Obligations.FrameBytesAreAccepted :=
  fun _ _ _ _ _ hd hx hn => runAll_frame hd hx hn

end

section
/-! The end of a transmission (R120, R122, R127). -/

open Sys2Proof Sys2Proof.Machine

/-- Settles O55: what is in transmission decides, and a reply's sequence whether it enters the cache. -/
theorem transmissionEnds : Obligations.TransmissionEnds := by
  intro s
  have hx : exec .transmissionEnd s = .next s.transmissionEnd := rfl
  refine ⟨fun h => ?_, fun f h => ?_, fun q h => ?_⟩
  · rw [hx, State.transmissionEnd, h]
  · rcases h with h | h <;> rw [hx, State.transmissionEnd, h]
  · rw [hx, State.transmissionEnd, h]
    rfl

end

section
/-! What the owners' operations and the events of the part make of the bounds of the link, the report block and the
wear: none of them touches the waiting frames or the cache, and each keeps the other two bounds. -/

open Sys2Proof

namespace Sys2Proof.Machine

variable {s t u : State} {c : Chan} {op : State → State × List Byte}

/-- What every effect before the arbiter's choice leaves of the link, and the bounds that it keeps. -/
structure Within (s t : State) : Prop where
  waiting : t.link.waiting = s.link.waiting
  cache : t.link.cache = s.link.cache
  reports : s.reports.lawful = true → t.reports.lawful = true
  wear : s.store.wearLawful = true → t.store.wearLawful = true

/-! The wear (R154). -/

theorem wearLawful_iff (st : Store) : st.wearLawful = true ↔ ∀ a, (st.dir a).eraseCount ≤ Config.eraseLimit := by
  simp only [Store.wearLawful, List.all_eq_true, decide_eq_true_eq, Vector.mem_toList_iff, Vector.mem_iff_getElem]
  constructor
  · exact fun h a => h _ ⟨a.val, a.isLt, rfl⟩
  · rintro h _ ⟨i, hi, rfl⟩
    exact h ⟨i, hi⟩

theorem dir_setDir (st : Store) (a b : Fin 8) (d : Dir) : (st.setDir a d).dir b = if b = a then d else st.dir b := by
  show (st.dirs.set a.val d a.isLt)[b.val] = if b = a then d else st.dirs[b.val]
  simp only [Vector.getElem_set, Fin.ext_iff, eq_comm (a := a.val)]

theorem setDir_wear {st : Store} (h : st.wearLawful = true) (a : Fin 8) {d : Dir}
    (hd : d.eraseCount ≤ Config.eraseLimit) : (st.setDir a d).wearLawful = true := by
  rw [wearLawful_iff] at h ⊢
  intro b
  rw [dir_setDir]
  split
  · exact hd
  · exact h b

/-- A record that keeps its erase count keeps the wear. -/
theorem setDir_sameWear {st : Store} (h : st.wearLawful = true) (a : Fin 8) {d : Dir}
    (hd : d.eraseCount = (st.dir a).eraseCount) : (st.setDir a d).wearLawful = true :=
  setDir_wear h a (hd ▸ (wearLawful_iff st).mp h a)

theorem scanDir_eraseCount (st : Store) (a : Fin 8) : (st.scanDir a).eraseCount = (st.dir a).eraseCount := by
  unfold Store.scanDir Store.scanValid
  dsimp only
  repeat' split
  all_goals rfl

theorem scan_wear {st : Store} (h : st.wearLawful = true) (n : Nat) : (st.scan n).wearLawful = true := by
  rw [wearLawful_iff] at h ⊢
  intro a
  rw [Store.dir, scan_dir]
  split
  · rw [scanDir_eraseCount]; exact h a
  · exact h a

theorem interrupted_wear {st : Store} (h : st.wearLawful = true) (n : Nat) : (st.interrupted n).wearLawful = true := by
  unfold Store.interrupted
  split
  case h_6 => exact scan_wear h n
  all_goals exact h

/-! The moves. -/

namespace Within

theorem rfl' (s : State) : Within s s := ⟨rfl, rfl, id, id⟩

theorem trans (h1 : Within s t) (h2 : Within t u) : Within s u :=
  ⟨h2.waiting.trans h1.waiting, h2.cache.trans h1.cache, h2.reports ∘ h1.reports, h2.wear ∘ h1.wear⟩

/-- An effect outside the link, the report block and the directory. -/
theorem of_eq (hl : t.link = s.link) (hr : t.reports = s.reports) (hd : t.store = s.store) : Within s t :=
  ⟨by rw [hl], by rw [hl], by rw [hr]; exact id, by rw [hd]; exact id⟩

theorem report (h : Within s t) (r : ReportBody) : Within s (t.report r) :=
  h.trans ⟨rfl, rfl, fun hb => make_lawful hb r, id⟩

theorem setChan (h : Within s t) (c : Chan) (x : Channel) : Within s (t.setChan c x) :=
  h.trans (.of_eq (by simp) (by simp) (by simp))

theorem enter (h : Within s t) (c : Chan) (st : ChanState) : Within s (t.enter c st) := by
  unfold State.enter
  split
  · exact h
  · exact (h.setChan c _).report _

theorem moveGate (h : Within s t) (c : Chan) (g : Gate) : Within s (t.moveGate c g) := by
  unfold State.moveGate
  split
  · exact h.setChan c _
  · exact (h.setChan c _).report _

theorem epochEvent (s : State) (cause : EpochCause) : Within s (s.epochEvent cause) := by
  obtain ⟨-, hst, -, hl, -, hr, -⟩ := epochEvent_kept s cause
  refine ⟨by rw [hl], by rw [hl], fun hb => ?_, by rw [hst]; exact id⟩
  rw [hr]
  exact make_lawful (recount_lawful hb _) _

theorem syncRise (s : State) : Within s s.syncRise := by
  have h0 (e : Epoch) : Within s { s with epoch := e } := .of_eq rfl rfl rfl
  unfold State.syncRise
  split
  · exact h0 _
  · exact (h0 _).trans (epochEvent _ _)
  · exact (h0 _).trans (epochEvent _ _)

end Within

/-- A chain of moves of the hop engine keeps the bounds. -/
theorem EngineMoves.within (h : EngineMoves s t) : Within s t := by
  induction h with
  | refl s => exact .rfl' s
  | setChan s c x _ => exact (Within.rfl' s).setChan c x
  | pin s i => exact .of_eq rfl rfl rfl
  | unpin s i => exact .of_eq rfl rfl rfl
  | report s r _ => exact (Within.rfl' s).report r
  | settle s =>
    unfold State.settleEpoch
    split
    · exact .syncRise s
    · exact .rfl' s
  | trans _ _ ih1 ih2 => exact ih1.trans ih2

theorem changeHold_within (s : State) (c : Chan) (h : HoldSet) : Within s (s.changeHold c h) := by
  have hg (x : HoldSet) : Within s (s.applyHold c x) := (Within.rfl' s).moveGate c _
  rcases EngineMoves.changeHold_after (s := s) c h with m | m
  · exact (hg _).trans m.within
  · exact (hg _).trans m.within

theorem configure_within (s : State) (c : Chan) (cfg : ChanConfig) : Within s (s.configure c cfg) :=
  ((Within.rfl' s).setChan c { s.chan c with cfg := cfg }).trans (changeHold_within _ c _)

theorem gateLineChange_within (s : State) : Within s s.gateLineChange :=
  (Within.of_eq (s := s) (t := s.lineTaken) rfl rfl rfl).trans
    ((changeHold_within _ .A _).trans (changeHold_within _ .B _))

/-! The store and the loader. -/

/-- An operation that the store engine takes keeps the wear where the area's record does (R154, R157). -/
theorem beginStore_within (s : State) (e : EngineState) (a : Fin 8) (d : Dir) (op : StoreOp)
    (hd : s.store.wearLawful = true → d.eraseCount ≤ Config.eraseLimit) : Within s (s.beginStore e a d op) :=
  ⟨rfl, rfl, id, fun h => setDir_wear h a (hd h)⟩

theorem dir_wear {st : Store} (a : Fin 8) (h : st.wearLawful = true) : (st.dir a).eraseCount ≤ Config.eraseLimit :=
  (wearLawful_iff st).mp h a

/-- A completion event of the store leaves the erase count (R154). -/
theorem endStore_within (s : State) {st : Store} (hst : st.dirs = s.store.dirs) (a : Fin 8) {d : Dir}
    (hd : d.eraseCount = (s.store.dir a).eraseCount) (r : ReportBody) : Within s (s.endStore st a d r) := by
  have hw (h : s.store.wearLawful = true) : (st.setDir a d).wearLawful = true :=
    setDir_sameWear (by simpa [Store.wearLawful, hst] using h) a (by rw [hd, Store.dir, Store.dir, hst])
  exact ⟨rfl, rfl, fun hb => make_lawful hb r, hw⟩

theorem program_dirs (st : Store) (a : Fin 8) (chunk : Nat) (bs : List Byte) :
    (st.program a chunk bs).dirs = st.dirs := rfl

theorem eraseDone_within (s : State) (a : Fin 8) (seq : Byte) : Within s (s.eraseDone a seq) :=
  endStore_within s (st := s.store.eraseChunks a 64) rfl a (by rfl) _

theorem writeDone_within (s : State) (a : Fin 8) (seq : Byte) (chunk : Nat) (data : List Byte) :
    Within s (s.writeDone a seq chunk data) :=
  endStore_within s (program_dirs s.store a chunk data) a (by rfl) _

theorem commitDone_within (s : State) (a : Fin 8) (seq : Byte) (r : CommitRec) : Within s (s.commitDone a seq r) :=
  endStore_within s (program_dirs s.store a _ (commitRecordBytes r)) a (by rfl) _

theorem revokeDone_within (s : State) (a : Fin 8) (seq : Byte) : Within s (s.revokeDone a seq) :=
  endStore_within s (program_dirs s.store a _ (s.store.revokeBytes a)) a (by rfl) _

theorem validate_within (s : State) (a : Fin 8) (seq : Byte) (au : Bool) (ch : Chan) (sa : Bool) :
    Within s (s.validate a seq au ch sa) := by
  unfold State.validate
  split
  · exact endStore_within s rfl a rfl _
  · exact beginStore_within s _ a _ _ (dir_wear a)

theorem scanDone_within (s : State) (cause : ResetCause) : Within s (s.scanDone cause) :=
  ⟨rfl, rfl, fun hb => make_lawful (b := { s.reports with isOpen := true }) hb _, fun h => scan_wear h 8⟩

theorem endLoad_within (s : State) : Within s s.endLoad := by
  obtain ⟨-, hst, hr, -, hl, -⟩ := endLoad_kept s
  exact .of_eq hl hr hst

theorem failLoad_within (s : State) (k : LoadCtx) (st : Status) (detail : Byte) :
    Within s (s.failLoad k st detail) := ((endLoad_within s).enter k.chan .idle).report _

theorem cancelLoad_within (s : State) : Within s s.cancelLoad := by
  cases hc : s.loader.ctx with
  | none => rw [cancelLoad_none hc]; exact .rfl' s
  | some k => rw [cancelLoad_eq hc]; exact failLoad_within s k _ _

theorem acceptLoad_within (s : State) (k : LoadCtx) : Within s (s.acceptLoad k) := by
  have hreserve (use : BitVec 48) (l : Loader) : Within s (State.reserve { s with loader := l } use) :=
    .of_eq (by simp [State.reserve]) (by simp [State.reserve]) (by simp [State.reserve])
  exact ((hreserve _ _).enter k.chan .loading).trans ⟨rfl, rfl, id, id⟩

theorem applyLoad_within (s : State) (k : LoadCtx) (p : Program) : Within s (s.applyLoad k p) := by
  obtain ⟨hst, -, hl, -, -, hr⟩ := (installProgram_installed s k.chan p).outside
  have hi : Within s (s.installProgram k.chan p) := .of_eq hl hr hst
  cases hk : k.start with
  | false => rw [applyLoad_rest hk]; exact hi.trans (failLoad_within _ k _ _)
  | true =>
    rw [applyLoad_start hk]
    exact (hi.trans ((endLoad_within _).trans ((EngineMoves.refl _).startChannel k.chan).within)).report _

theorem corruptLoad_within (s : State) (k : LoadCtx) : Within s (s.corruptLoad k) := by
  have hd : Within s (s.setDir k.area (s.store.dir k.area).damaged) :=
    ⟨rfl, rfl, id, fun h => setDir_sameWear h k.area rfl⟩
  exact hd.trans (failLoad_within _ k _ _)

theorem checkLoad_within (s : State) (k : LoadCtx) (p : Program) : Within s (s.checkLoad k p) := by
  unfold State.checkLoad
  repeat' split
  · exact failLoad_within s k _ _
  · exact failLoad_within s k _ _
  · exact applyLoad_within s k p

theorem completeLoad_within (s : State) (k : LoadCtx) : Within s (s.completeLoad k) := by
  have hstage (r : CommitRec) : Within s (s.stage k r) := .of_eq rfl rfl rfl
  unfold State.completeLoad
  dsimp only
  repeat' split
  · exact corruptLoad_within s k
  · exact (hstage _).trans (corruptLoad_within _ k)
  · exact (hstage _).trans (corruptLoad_within _ k)
  · exact (hstage _).trans (checkLoad_within _ k _)

theorem autoStep_within (s : State) (a : AutoArea) : Within s (s.autoStep a) := by
  have hread (l : Loader) : Within s (State.setEngine { s with loader := l } .reading) := ⟨rfl, rfl, id, id⟩
  unfold State.autoStep
  dsimp only
  repeat' split
  · exact (hread _).report _
  · exact (hread _).report _
  · exact (hread _).report _
  · exact (hread _).trans (acceptLoad_within _ _)

theorem resetChannel_within (s : State) (c : Chan) : Within s (s.resetChannel c) :=
  (((Within.rfl' s).setChan c _).enter c .idle).moveGate c _

theorem unpinSlots_within (s : State) : Within s s.unpinSlots := by
  obtain ⟨hst, -, -, hr, -⟩ := unpinSlots_kept s
  exact .of_eq (by simp [State.unpinSlots]) hr hst

theorem resetChannels_within (s : State) : Within s s.resetChannels := by
  have hA := (cancelLoad_within s).trans (resetChannel_within _ .A)
  exact (hA.trans (resetChannel_within _ .B)).trans (unpinSlots_within _)

/-! The owners' operations (Table 6-4). -/

/-- An owner's operation that keeps the bounds. -/
def StaysWithin (op : State → State × List Byte) : Prop := ∀ s : State, Within s (op s).1

theorem staysWithin_of_same (ho : ∀ s, (op s).1 = s) : StaysWithin op := fun s => by rw [ho]; exact .rfl' s

theorem opResetScope_within (scope : Byte) : StaysWithin (opResetScope scope) := fun s => by
  unfold opResetScope opResetFull
  repeat' split
  · exact resetChannels_within s
  · exact .rfl' s
  · exact ⟨rfl, rfl, id, id⟩
  · exact .rfl' s

theorem opSlotSet_within (index : Byte) (word : BitVec 32) (offset : BitVec 16) (label : List Byte) :
    StaysWithin (opSlotSet index word offset label) := fun s => by
  unfold opSlotSet
  repeat' split
  all_goals exact .of_eq rfl rfl rfl

theorem opSlotClear_within (index : Byte) : StaysWithin (opSlotClear index) := fun s => by
  unfold opSlotClear
  repeat' split
  all_goals exact .of_eq rfl rfl rfl

theorem opSlotGet_within (index : Byte) : StaysWithin (opSlotGet index) := fun s => by
  unfold opSlotGet
  split <;> exact .rfl' s

theorem opEpochMode_within (mode : Byte) : StaysWithin (opEpochMode mode) := fun s => by
  unfold opEpochMode
  split
  · exact .epochEvent s .request
  · repeat' split
    all_goals exact .of_eq rfl rfl rfl

theorem opHopAppend_within (channel count : Byte) (entries : List Byte) :
    StaysWithin (opHopAppend channel count entries) := fun s => by
  have hs : Within s s := .rfl' s
  unfold opHopAppend appendParsed appendChecked
  dsimp only
  repeat' split
  exacts [hs, hs, hs, hs, hs, hs, hs, hs, ((EngineMoves.refl s).appendEntries _ _).within]

theorem flush_within (s : State) (c : Chan) : Within s (s.flush c) := by
  by_cases hst : (s.chan c).st = .loading
  · have hf : s.flush c = (s.emptyQueue c).cancelLoad := by simp only [State.flush, hst, if_true]
    rw [hf]
    exact ((EngineMoves.refl s).emptyQueue c).within.trans (cancelLoad_within _)
  · exact ((EngineMoves.refl s).flush c hst).within

theorem opHopFlush_within (channel : Byte) : StaysWithin (opHopFlush channel) := fun s => by
  unfold opHopFlush
  split
  · exact .rfl' s
  · exact flush_within s _

theorem opQueueGet_within (channel first count : Byte) : StaysWithin (opQueueGet channel first count) := fun s => by
  unfold opQueueGet
  repeat' split
  all_goals exact .rfl' s

theorem opStart_within (channel : Byte) : StaysWithin (opStart channel) := fun s => by
  unfold opStart
  repeat' split
  · exact .rfl' s
  · exact .rfl' s
  · exact ((EngineMoves.refl s).startChannel _).within
  · exact .rfl' s

theorem opStop_within (channel : Byte) (now : Bool) : StaysWithin (opStop channel now) := fun s => by
  unfold opStop State.stopOrCancel
  dsimp only
  repeat' split
  · exact .rfl' s
  · exact cancelLoad_within s
  · exact ((EngineMoves.refl s).stopChannel _ now).within

theorem opStopMode_within (channel mode : Byte) : StaysWithin (opStopMode channel mode) := fun s => by
  unfold opStopMode
  repeat' split
  exacts [opStop_within channel _ s, opStop_within channel _ s, .rfl' s]

theorem opChannelConfig_within (channel policy cycle edge : Byte) (ramp : BitVec 16) (follow : Byte)
    (pairTimeout : BitVec 24) :
    StaysWithin (opChannelConfig channel policy cycle edge ramp follow pairTimeout) := fun s => by
  have hs : Within s s := .rfl' s
  unfold opChannelConfig
  split
  · exact hs
  · repeat' split
    exacts [hs, hs, hs, configure_within s _ _]

theorem opChannelGet_within (channel : Byte) : StaysWithin (opChannelGet channel) := fun s => by
  unfold opChannelGet
  split <;> exact .rfl' s

theorem opGate_within (channel : Byte) (hold : Bool) : StaysWithin (opGate channel hold) := fun s => by
  unfold opGate
  split
  · exact .rfl' s
  · exact changeHold_within s _ _

theorem opGateAction_within (channel action : Byte) : StaysWithin (opGateAction channel action) := fun s => by
  unfold opGateAction
  repeat' split
  exacts [opGate_within channel _ s, opGate_within channel _ s, .rfl' s]

/-- A mask with a bit of no maskable kind is refused (R147). -/
theorem opReportConfig_within (mask : BitVec 16) : StaysWithin (opReportConfig mask) := fun s => by
  unfold opReportConfig
  split
  · rename_i hm
    refine ⟨rfl, rfl, fun hb => ?_, id⟩
    exact (reportsLawful_iff _).mpr { (reportsLawful_iff _).mp hb with mask := hm }
  · exact .rfl' s

/-- An erase past the limit is refused (R154). -/
theorem opStoreErase_within (area seq : Byte) (wp : Bool) : StaysWithin (opStoreErase area seq wp) := fun s => by
  have hs : Within s s := .rfl' s
  unfold opStoreErase
  split
  · exact hs
  · dsimp only
    repeat' split
    · exact hs
    · exact hs
    · exact hs
    · rename_i hlimit _
      exact beginStore_within s _ _ _ _ fun _ => Nat.lt_of_not_le hlimit

theorem opStoreWrite_within (area chunk : Byte) (data : List Byte) (seq : Byte) (wp : Bool) :
    StaysWithin (opStoreWrite area chunk data seq wp) := fun s => by
  have hs : Within s s := .rfl' s
  unfold opStoreWrite
  split
  · exact hs
  · dsimp only
    repeat' split
    exacts [hs, hs, hs, hs, hs, beginStore_within s _ _ _ _ (dir_wear _)]

theorem opStoreCommit_within (area autostart channel startAfter seq : Byte) (wp : Bool) :
    StaysWithin (opStoreCommit area autostart channel startAfter seq wp) := fun s => by
  have hs : Within s s := .rfl' s
  unfold opStoreCommit
  repeat' split
  exacts [hs, hs, hs, beginStore_within s _ _ _ _ (dir_wear _), hs]

theorem opStoreRevoke_within (area seq : Byte) (wp : Bool) : StaysWithin (opStoreRevoke area seq wp) := fun s => by
  have hs : Within s s := .rfl' s
  unfold opStoreRevoke
  repeat' split
  exacts [hs, hs, hs, hs, beginStore_within s _ _ _ _ (dir_wear _)]

theorem opStoreRead_within (area : Byte) (offset : BitVec 16) (length : Byte) :
    StaysWithin (opStoreRead area offset length) := fun s => by
  unfold opStoreRead
  repeat' split
  all_goals exact .rfl' s

theorem opStoreBlank_within (area : Byte) : StaysWithin (opStoreBlank area) := fun s => by
  unfold opStoreBlank
  repeat' split
  all_goals exact .rfl' s

theorem opStoreDigest_within (area first last : Byte) : StaysWithin (opStoreDigest area first last) := fun s => by
  unfold opStoreDigest
  repeat' split
  all_goals exact .rfl' s

theorem opStoreInfo_within : StaysWithin opStoreInfo := fun s => by
  unfold opStoreInfo
  split <;> exact .rfl' s

theorem opLoad_within (area channel start seq : Byte) : StaysWithin (opLoad area channel start seq) := fun s => by
  have hs : Within s s := .rfl' s
  unfold opLoad
  repeat' split
  exacts [hs, hs, hs, acceptLoad_within s _, hs]

/-- Every owner's operation keeps the bounds. -/
theorem ownerOf_within (k : Kind) (p : List Byte) (seq : Byte) (wp : Bool) : StaysWithin (ownerOf k p seq wp) := by
  cases k with
  | ping => exact staysWithin_of_same fun _ => rfl
  | identify => exact staysWithin_of_same fun _ => rfl
  | status => exact staysWithin_of_same fun _ => rfl
  | reset => exact opResetScope_within _
  | slotSet => exact opSlotSet_within _ _ _ _
  | slotClear => exact opSlotClear_within _
  | slotGet => exact opSlotGet_within _
  | epoch => exact opEpochMode_within _
  | epochGet => exact staysWithin_of_same fun _ => rfl
  | hopAppend => exact opHopAppend_within _ _ _
  | hopFlush => exact opHopFlush_within _
  | queueGet => exact opQueueGet_within _ _ _
  | start => exact opStart_within _
  | stop => exact opStopMode_within _ _
  | channelConfig => exact opChannelConfig_within _ _ _ _ _ _ _
  | channelGet => exact opChannelGet_within _
  | gate => exact opGateAction_within _ _
  | reportConfig => exact opReportConfig_within _
  | storeErase => exact opStoreErase_within _ _ _
  | storeWrite => exact opStoreWrite_within _ _ _ _ _
  | storeCommit => exact opStoreCommit_within _ _ _ _ _ _
  | storeRevoke => exact opStoreRevoke_within _ _ _
  | storeRead => exact opStoreRead_within _ _ _
  | storeBlank => exact opStoreBlank_within _
  | storeDigest => exact opStoreDigest_within _ _ _
  | storeInfo => exact opStoreInfo_within
  | load => exact opLoad_within _ _ _ _

end Sys2Proof.Machine
end

section
/-! The arbiter, the accepted frames, the commands and the step keep the bounds of the link, the report block and the
wear. -/

open Sys2Proof

namespace Sys2Proof.Machine

variable {s t u : State} {i : Instr} {op : State → State × List Byte}

/-- The three bounds, each kept for itself. -/
structure KeepsBounds (s t : State) : Prop where
  link : s.link.lawful = true → t.link.lawful = true
  reports : s.reports.lawful = true → t.reports.lawful = true
  wear : s.store.wearLawful = true → t.store.wearLawful = true

/-! The link (R118 to R120). -/

theorem linkLawful_iff (l : Link) : l.lawful = true ↔ l.waiting.countP Outgoing.isReply ≤ 4 ∧
    l.waiting.countP Outgoing.isRefusal ≤ 1 ∧ l.cache.length ≤ 4 := by
  simp only [Link.lawful, Bool.and_eq_true, decide_eq_true_eq, and_assoc]
  exact Iff.rfl

/-- A link on which no more waits and no more is cached keeps its bounds. -/
theorem linkLawful_sublist {l l' : Link} (h : l.lawful = true) (hw : l'.waiting.Sublist l.waiting)
    (hc : l'.cache.length ≤ l.cache.length) : l'.lawful = true := by
  rw [linkLawful_iff] at h ⊢
  obtain ⟨h1, h2, h3⟩ := h
  exact ⟨(hw.countP_le).trans h1, (hw.countP_le).trans h2, hc.trans h3⟩

theorem placeReply_lawful {l l' : Link} (h : l.lawful = true) (hr : l.roomy = true) {q : Reply}
    (hw : l'.waiting = l.waiting ++ [.reply q]) (hc : l'.cache = l.cache) : l'.lawful = true := by
  rw [linkLawful_iff] at h ⊢
  obtain ⟨-, h2, h3⟩ := h
  rw [roomy_iff] at hr
  rw [hw, hc]
  exact ⟨by simpa [List.countP_append, Outgoing.isReply] using hr,
    by simpa [List.countP_append, Outgoing.isRefusal] using h2, h3⟩

theorem placeRefusal_lawful {l : Link} (h : l.lawful = true) (hn : l.refusalWaits = false) (frame : List Byte) :
    Link.lawful { l with waiting := l.waiting ++ [.refusal frame] } = true := by
  rw [linkLawful_iff] at h ⊢
  obtain ⟨h1, -, h3⟩ := h
  have h0 : l.waiting.countP Outgoing.isRefusal = 0 := by
    rw [List.countP_eq_zero]
    exact List.any_eq_false.mp hn
  refine ⟨by simpa [List.countP_append, Outgoing.isReply] using h1, ?_, h3⟩
  rw [List.countP_append, h0]
  rfl

/-- The oldest entry leaves a full cache (R120). -/
theorem cacheEnter_length {cache : List CacheEntry} (h : cache.length ≤ 4) (q : CacheEntry) :
    (cacheEnter cache q).length ≤ 4 := by
  have hrest : (cacheWithout q.seq cache).length ≤ 4 := (List.length_filter_le _ _).trans h
  have hfour : Config.cacheCapacity = 4 := rfl
  unfold cacheEnter
  dsimp only
  split
  · rw [List.length_append, List.length_singleton]; omega
  · rw [List.length_append, List.length_singleton, List.length_tail]; omega

namespace KeepsBounds

theorem rfl' (s : State) : KeepsBounds s s := ⟨id, id, id⟩

theorem trans (h1 : KeepsBounds s t) (h2 : KeepsBounds t u) : KeepsBounds s u :=
  ⟨h2.link ∘ h1.link, h2.reports ∘ h1.reports, h2.wear ∘ h1.wear⟩

theorem ite {b : Prop} [Decidable b] (ht : KeepsBounds s t) (hu : KeepsBounds s u) :
    KeepsBounds s (if b then t else u) := by
  split
  · exact ht
  · exact hu

end KeepsBounds

theorem Within.keeps (h : Within s t) : KeepsBounds s t :=
  ⟨fun hl => linkLawful_sublist hl (by rw [h.waiting]) (by rw [h.cache]), h.reports, h.wear⟩

/-- A change of the receiver alone. -/
theorem receiver_keeps (s : State) (rx : RxState) (buf : List Byte) : KeepsBounds s (s.receive rx buf) :=
  Within.keeps ⟨rfl, rfl, id, id⟩

/-! The arbiter (R122, R142, R144). -/

theorem arbitrate_keeps (s : State) : KeepsBounds s s.arbitrate := by
  rcases arbitrate_cases s with ⟨-, h⟩ | ⟨-, -, ⟨o, rest, hw, h⟩ | ⟨-, r, -, h⟩ | ⟨-, -, r, rest, hq, h⟩ |
    ⟨-, -, -, h⟩⟩ <;> rw [h]
  · exact .rfl' s
  · exact ⟨fun hl => linkLawful_sublist hl (by rw [hw]; exact List.sublist_cons_self o rest) (Nat.le_refl _), id, id⟩
  · exact ⟨id, fun hb => reportsLawful_congr hb rfl rfl rfl rfl, id⟩
  · have hd (hb : s.reports.lawful = true) := departHead_lawful hb hq
    unfold State.sendHead
    split <;> exact ⟨id, hd, id⟩
  · exact .rfl' s

theorem drivePorts_within (s : State) : Within s s.drivePorts := .of_eq (by simp) (by simp) (by simp)

theorem finish_keeps (h : KeepsBounds s t) : KeepsBounds s t.finish :=
  h.trans ((arbitrate_keeps t).trans (drivePorts_within _).keeps)

/-! The events of the sample period. -/

theorem takeIf_keeps {due : Bool} {effect : State → State} (h : Within s (effect s)) :
    KeepsBounds s (s.takeIf due effect) := .ite (finish_keeps h.keeps) (.rfl' s)

theorem doSyncEdge_keeps (s : State) : KeepsBounds s s.doSyncEdge := takeIf_keeps (.syncRise s)
theorem doWrap_keeps (s : State) : KeepsBounds s s.doWrap := takeIf_keeps (.of_eq rfl rfl rfl)
theorem doGateLine_keeps (s : State) : KeepsBounds s s.doGateLine := takeIf_keeps (gateLineChange_within s)
theorem doArrival_keeps (s : State) (c : Chan) : KeepsBounds s (s.doArrival c) :=
  takeIf_keeps ((EngineMoves.refl s).gateArrive c).within
theorem doExpiry_keeps (s : State) (c : Chan) : KeepsBounds s (s.doExpiry c) :=
  takeIf_keeps ((EngineMoves.refl s).expire c).within
theorem doEdge_keeps (s : State) (c : Chan) : KeepsBounds s (s.doEdge c) :=
  takeIf_keeps ((EngineMoves.refl s).takeEdge c).within
theorem doTime_keeps (s : State) (c : Chan) : KeepsBounds s (s.doTime c) :=
  takeIf_keeps ((EngineMoves.refl s).timeArrive c).within
theorem doPairTimer_keeps (s : State) (c : Chan) : KeepsBounds s (s.doPairTimer c) :=
  takeIf_keeps ((EngineMoves.refl s).pairExpire c).within

theorem doChannel_keeps (s : State) (c : Chan) : KeepsBounds s (s.doChannel c) :=
  (doArrival_keeps s c).trans ((doExpiry_keeps _ c).trans ((doEdge_keeps _ c).trans (doTime_keeps _ c)))

theorem closePeriod_keeps (s : State) : KeepsBounds s s.closePeriod :=
  (doSyncEdge_keeps s).trans ((doWrap_keeps _).trans ((doGateLine_keeps _).trans ((doChannel_keeps _ .A).trans
    ((doChannel_keeps _ .B).trans ((doPairTimer_keeps _ .A).trans (doPairTimer_keeps _ .B))))))

theorem reportWrap_within (s : State) : Within s s.reportWrap :=
  (Within.of_eq (s := s) (t := { s with epoch := { s.epoch with wrapHeld := false } }) rfl rfl rfl).report _

theorem endPeriod_keeps (s : State) : KeepsBounds s s.endPeriod :=
  (closePeriod_keeps s).trans (takeIf_keeps (reportWrap_within _))

theorem noteClock_keeps (s : State) (stopped : Bool) : KeepsBounds s (s.noteClock stopped) :=
  .ite ((closePeriod_keeps s).trans ⟨id, id, id⟩) (.rfl' s)

/-- A new period has made no report yet. -/
theorem advance_keeps (s : State) (lines : Lines) : KeepsBounds s (s.advance lines) := by
  refine ⟨by simp [State.advance], fun hb => ?_, by simp [State.advance]⟩
  have hr : (s.advance lines).reports = s.reports.nextPeriod := by simp [State.advance]
  have hbounds := (reportsLawful_iff _).mp hb
  rw [hr]
  exact (reportsLawful_iff _).mpr { hbounds with begun := Nat.zero_le _ }

/-! An accepted frame (R115 to R121). -/

theorem refuseWindow_keeps (s : State) (kind seq : Byte) : KeepsBounds s (s.refuseWindow kind seq) := by
  unfold State.refuseWindow
  split
  · exact ((Within.rfl' s).report _).keeps
  · rename_i hn
    exact ⟨fun hl => placeRefusal_lawful hl (Bool.eq_false_iff.mpr hn) _, id, id⟩

/-- A reply takes a slot that is free. -/
theorem execute_keeps (ho : StaysWithin op) (hr : s.link.roomy = true) (seq : Byte) (check : BitVec 16) :
    KeepsBounds s (s.execute seq check op) := by
  have h := ho s
  have hw : (s.execute seq check op).link.waiting = s.link.waiting ++
      [.reply { seq := seq, check := check, frame := (op s).2, full := (op s).1.link.deaf }] :=
    congrArg (· ++ _) h.waiting
  exact ⟨fun hl => placeReply_lawful hl hr hw h.cache, h.reports, h.wear⟩

theorem uncached_keeps (s : State) (seq : Byte) :
    KeepsBounds s { s with link := { s.link with cache := cacheWithout seq s.link.cache } } :=
  ⟨fun hl => linkLawful_sublist hl (List.Sublist.refl _) (List.length_filter_le _ _), id, id⟩

theorem acceptFrame_keeps (ho : StaysWithin op) (s : State) (kind seq : Byte) (payload : List Byte) :
    KeepsBounds s (s.acceptFrame kind seq payload op) := by
  unfold State.acceptFrame
  dsimp only
  split
  · exact .rfl' s
  · split
    · rename_i hr
      exact ⟨fun hl => placeReply_lawful hl hr rfl rfl, id, id⟩
    · exact refuseWindow_keeps s kind seq
  · split
    · rename_i hr
      refine (uncached_keeps s seq).trans (execute_keeps ho ?_ seq _)
      exact hr
    · exact (uncached_keeps s seq).trans (refuseWindow_keeps _ kind seq)
  · split
    · rename_i hr
      exact execute_keeps ho hr seq _
    · exact refuseWindow_keeps s kind seq

theorem frameRun_within (kind seq : Byte) (payload : List Byte) (wp : Bool) :
    StaysWithin (frameRun kind seq payload wp) := fun s => by
  unfold frameRun
  cases kindOf kind with
  | none => exact .rfl' s
  | some k =>
    show Within s (answer k seq payload (ownerOf k payload seq wp) s).1
    unfold answer
    split
    · exact ownerOf_within k payload seq wp s
    · exact .rfl' s

theorem acceptBytes_keeps (s : State) (kind seq : Byte) (payload : List Byte) (wp : Bool) :
    KeepsBounds s (s.acceptBytes kind seq payload wp) := by
  rw [acceptBytes_eq]
  exact finish_keeps (acceptFrame_keeps (frameRun_within kind seq payload wp) s kind seq payload)

theorem frameEnds_keeps (s : State) (pins : Pins) : KeepsBounds s (s.frameEnds pins) :=
  (receiver_keeps s .hunt []).trans (noteClock_keeps _ _)

/-- An accepted frame, from the last byte to the arbiter's choice. -/
theorem frame_keeps (s : State) (pins : Pins) (kind seq : Byte) (payload : List Byte) (wp : Bool) :
    KeepsBounds s ((s.frameEnds pins).acceptBytes kind seq payload wp) :=
  (frameEnds_keeps s pins).trans (acceptBytes_keeps _ kind seq payload wp)

/-! The receiver and the transmitter. -/

theorem receiverFault_keeps (s : State) (reason : FaultReason) : KeepsBounds s (s.receiverFault reason) :=
  finish_keeps ((receiver_keeps s .hunt []).trans ((Within.rfl' _).report _).keeps)

theorem takeByte_keeps (s : State) (b : Byte) (pins : Pins) : KeepsBounds s (s.takeByte b pins) := by
  unfold State.takeByte
  dsimp only
  split
  · exact .ite (receiver_keeps s _ _) (.rfl' s)
  · exact .ite (receiverFault_keeps s _) (receiver_keeps s _ _)
  · exact receiver_keeps s _ _
  · exact receiver_keeps s _ _
  · exact receiver_keeps s _ _
  · exact receiver_keeps s _ _
  · exact .ite (frame_keeps s pins _ _ _ _) (receiverFault_keeps s _)

theorem replySent_keeps (s : State) (q : Reply) : KeepsBounds s (s.replySent q) := by
  refine ⟨fun hl => ?_, id, id⟩
  rw [linkLawful_iff] at hl ⊢
  obtain ⟨h1, h2, h3⟩ := hl
  refine ⟨h1, h2, ?_⟩
  show (if q.seq = 0#8 then _ else _ : List CacheEntry).length ≤ 4
  split
  · exact h3
  · exact cacheEnter_length h3 _

theorem transmissionEnd_keeps (s : State) : KeepsBounds s s.transmissionEnd := by
  unfold State.transmissionEnd
  split
  · exact .rfl' s
  · exact finish_keeps (replySent_keeps s _)
  · exact finish_keeps ⟨id, id, id⟩
  · exact finish_keeps ⟨id, id, id⟩

/-! The commands. -/

/-- A reset leaves an empty link and report block, and the wear that the store has (R129, R167). -/
theorem restart_keeps {st : Store} (hw : s.store.wearLawful = true → st.wearLawful = true) (straps : Straps)
    (cause : ResetCause) (ports : Ports) : KeepsBounds s (s.restart st straps cause ports) :=
  ⟨fun _ => rfl, fun _ => resetLawful.2.1, hw⟩

theorem fullReset_keeps (s : State) (straps : Straps) (stopped : Bool) :
    KeepsBounds s (s.fullReset straps stopped) := by
  rw [fullReset_eq]
  exact restart_keeps id _ _ _

theorem row_keeps {r : Req} {k : Kind} {payload : List Byte} (h : requestOf i = some (r, k, payload))
    (hx : exec i s = .next t) : KeepsBounds s t := by
  cases hd : s.link.deaf with
  | true =>
    rw [exec_row_deaf h hd] at hx
    cases hx
    exact .rfl' s
  | false =>
    rw [exec_row_bytes h hd] at hx
    cases hx
    exact frame_keeps s _ _ _ _ _

/-- Every command keeps the bounds. -/
theorem exec_keeps (hx : exec i s = .next t) : KeepsBounds s t := by
  have hs : KeepsBounds s s := .rfl' s
  cases i with
  | unknownKind seq pins kind payload =>
    cases hx
    refine .ite hs ((frameEnds_keeps s pins).trans (finish_keeps (acceptFrame_keeps ?_ _ _ _ _)))
    exact staysWithin_of_same fun _ => rfl
  | lengthFault => cases hx; exact .ite hs (receiverFault_keeps s _)
  | checkFault => cases hx; exact .ite hs (receiverFault_keeps s _)
  | interbyteTimeout => cases hx; exact .ite hs (receiverFault_keeps s _)
  | rxBreak => cases hx; exact .ite hs (receiverFault_keeps s _)
  | byteReceived _ b pins => cases hx; exact .ite hs (takeByte_keeps s b pins)
  | transmissionEnd => cases hx; exact transmissionEnd_keeps s
  | autostartStep =>
    cases hx
    split
    · exact takeIf_keeps (autoStep_within s _)
    · exact hs
  | fullReset straps stopped => cases hx; exact .ite (fullReset_keeps s straps stopped) hs
  | coldReset straps span => cases hx; exact restart_keeps (fun h => interrupted_wear h _) _ _ _
  | scanComplete =>
    cases hx
    split
    · exact finish_keeps (scanDone_within s _).keeps
    · exact hs
  | eraseComplete =>
    cases hx
    split
    · exact finish_keeps (eraseDone_within s _ _).keeps
    · exact hs
  | writeComplete =>
    cases hx
    split
    · exact finish_keeps (writeDone_within s _ _ _ _).keeps
    · exact hs
  | validation =>
    cases hx
    split
    · exact finish_keeps (validate_within s _ _ _ _ _).keeps
    · exact hs
  | commitComplete =>
    cases hx
    split
    · exact finish_keeps (commitDone_within s _ _ _).keeps
    · exact hs
  | revokeComplete =>
    cases hx
    split
    · exact finish_keeps (revokeDone_within s _ _).keeps
    · exact hs
  | loadReadComplete stopped =>
    cases hx
    split
    · exact finish_keeps ((noteClock_keeps s stopped).trans (completeLoad_within _ _).keeps)
    · exact hs
  | dwellExpiry c => cases hx; exact doExpiry_keeps s c
  | pairTimerExpiry c => cases hx; exact doPairTimer_keeps s c
  | gateArrival c => cases hx; exact doArrival_keeps s c
  | triggerEdge c => cases hx; exact doEdge_keeps s c
  | timeArrival c => cases hx; exact doTime_keeps s c
  | syncEdge => cases hx; exact doSyncEdge_keeps s
  | wrap => cases hx; exact doWrap_keeps s
  | gateLineChange => cases hx; exact doGateLine_keeps s
  | samplePeriod lines => cases hx; exact (endPeriod_keeps s).trans (advance_keeps _ lines)
  | retentionLoss area changes =>
    simp only [exec, execRetentionLoss] at hx
    split at hx
    · cases hx; exact ⟨id, id, id⟩
    · cases hx
  | _ => exact row_keeps rfl hx

theorem step_keeps (h : step s = .next t) : KeepsBounds s t := by
  unfold step at h
  split at h
  · cases h; exact .rfl' s
  · rename_i c rest _
    exact KeepsBounds.trans (t := { s with pending := rest }) ⟨id, id, id⟩ (exec_keeps h)

end Sys2Proof.Machine

open Sys2Proof.Machine

/-- Settles O6: every command keeps each of the three bounds for itself. -/
theorem boundsKept : Obligations.BoundsKept :=
  ⟨fun _ _ h hs => (step_keeps hs).link h, fun _ _ h hs => (step_keeps hs).reports h,
    fun _ _ h hs => (step_keeps hs).wear h⟩

end

section
/-! The transmit line is never free while something waits (R122): every event ends in the arbiter's choice, and what
does not end so neither frees the line nor makes anything wait. -/

open Sys2Proof

namespace Sys2Proof.Machine

variable {s t u : State} {i : Instr}

/-- After the arbiter's choice the line is busy or nothing waits. -/
theorem arbitrate_lineBusy (s : State) : s.arbitrate.lineBusy = true := by
  rcases arbitrate_cases s with ⟨hb, h⟩ | ⟨-, -, ⟨o, rest, -, h⟩ | ⟨-, r, -, h⟩ | ⟨-, -, r, rest, -, h⟩ |
    ⟨hw, hc, hq, h⟩⟩ <;> rw [h]
  · simp only [State.lineBusy, hb, Bool.true_or]
  · rfl
  · rfl
  · unfold State.sendHead
    split <;> rfl
  · simp [State.lineBusy, hw, hc, hq]

theorem finish_lineBusy (s : State) : s.finish.lineBusy = true := by
  have h := arbitrate_lineBusy s
  simpa [State.finish, State.lineBusy] using h

theorem ite_lineBusy {b : Prop} [Decidable b] (ht : t.lineBusy = true) (hu : u.lineBusy = true) :
    (if b then t else u).lineBusy = true := by
  split
  · exact ht
  · exact hu

theorem takeIf_lineBusy (h : s.lineBusy = true) (due : Bool) (effect : State → State) :
    (s.takeIf due effect).lineBusy = true := ite_lineBusy (finish_lineBusy _) h

theorem acceptBytes_lineBusy (s : State) (kind seq : Byte) (payload : List Byte) (wp : Bool) :
    (s.acceptBytes kind seq payload wp).lineBusy = true := by
  rw [acceptBytes_eq]
  exact finish_lineBusy _

theorem takeByte_lineBusy (h : s.lineBusy = true) (b : Byte) (pins : Pins) : (s.takeByte b pins).lineBusy = true := by
  have hr (rx : RxState) (buf : List Byte) : (s.receive rx buf).lineBusy = true := h
  unfold State.takeByte
  dsimp only
  split
  · exact ite_lineBusy (hr _ _) h
  · exact ite_lineBusy (finish_lineBusy _) (hr _ _)
  · exact hr _ _
  · exact hr _ _
  · exact hr _ _
  · exact hr _ _
  · exact ite_lineBusy (acceptBytes_lineBusy _ _ _ _ _) (finish_lineBusy _)

theorem transmissionEnd_lineBusy (h : s.lineBusy = true) : s.transmissionEnd.lineBusy = true := by
  unfold State.transmissionEnd
  split
  · exact h
  · exact finish_lineBusy _
  · exact finish_lineBusy _
  · exact finish_lineBusy _

theorem doChannel_lineBusy {c : Chan} (h : s.lineBusy = true) : (s.doChannel c).lineBusy = true := by
  have h1 : (s.doArrival c).lineBusy = true := takeIf_lineBusy h _ _
  have h2 : ((s.doArrival c).doExpiry c).lineBusy = true := takeIf_lineBusy h1 _ _
  have h3 : (((s.doArrival c).doExpiry c).doEdge c).lineBusy = true := takeIf_lineBusy h2 _ _
  exact takeIf_lineBusy h3 _ _

theorem doSyncEdge_lineBusy (h : s.lineBusy = true) : s.doSyncEdge.lineBusy = true := takeIf_lineBusy h _ _
theorem doWrap_lineBusy (h : s.lineBusy = true) : s.doWrap.lineBusy = true := takeIf_lineBusy h _ _
theorem doGateLine_lineBusy (h : s.lineBusy = true) : s.doGateLine.lineBusy = true := takeIf_lineBusy h _ _
theorem doPairTimer_lineBusy (h : s.lineBusy = true) (c : Chan) : (s.doPairTimer c).lineBusy = true :=
  takeIf_lineBusy h _ _

theorem closePeriod_lineBusy (h : s.lineBusy = true) : s.closePeriod.lineBusy = true :=
  doPairTimer_lineBusy (doPairTimer_lineBusy (doChannel_lineBusy (doChannel_lineBusy
    (doGateLine_lineBusy (doWrap_lineBusy (doSyncEdge_lineBusy h))))) .A) .B

theorem endPeriod_lineBusy (h : s.lineBusy = true) : s.endPeriod.lineBusy = true :=
  takeIf_lineBusy (closePeriod_lineBusy h) _ _

theorem advance_lineBusy (h : s.lineBusy = true) (lines : Lines) : (s.advance lines).lineBusy = true := by
  simpa [State.advance, State.lineBusy, ReportBlock.nextPeriod] using h

theorem row_lineBusy {r : Req} {k : Kind} {payload : List Byte} (h : requestOf i = some (r, k, payload))
    (hb : s.lineBusy = true) (hx : exec i s = .next t) : t.lineBusy = true := by
  cases hd : s.link.deaf with
  | true =>
    rw [exec_row_deaf h hd] at hx
    cases hx
    exact hb
  | false =>
    rw [exec_row_bytes h hd] at hx
    cases hx
    exact acceptBytes_lineBusy _ _ _ _ _

/-- Every command keeps the line busy while something waits. -/
theorem exec_lineBusy (h : s.lineBusy = true) (hx : exec i s = .next t) : t.lineBusy = true := by
  cases i with
  | unknownKind | lengthFault | checkFault | interbyteTimeout | rxBreak =>
    cases hx; exact ite_lineBusy h (finish_lineBusy _)
  | byteReceived _ b pins => cases hx; exact ite_lineBusy h (takeByte_lineBusy h b pins)
  | transmissionEnd => cases hx; exact transmissionEnd_lineBusy h
  | autostartStep =>
    cases hx
    split
    · exact takeIf_lineBusy h _ _
    · exact h
  | fullReset straps stopped => cases hx; rw [fullReset_eq]; exact ite_lineBusy rfl h
  | coldReset => cases hx; rfl
  | scanComplete | eraseComplete | writeComplete | validation | commitComplete | revokeComplete | loadReadComplete =>
    cases hx
    split
    · exact finish_lineBusy _
    · exact h
  | dwellExpiry | pairTimerExpiry | gateArrival | triggerEdge | timeArrival | syncEdge | wrap | gateLineChange =>
    cases hx; exact takeIf_lineBusy h _ _
  | samplePeriod lines => cases hx; exact advance_lineBusy (endPeriod_lineBusy h) lines
  | retentionLoss area changes =>
    simp only [exec, execRetentionLoss] at hx
    split at hx
    · cases hx; exact h
    · cases hx
  | _ => exact row_lineBusy rfl h hx

end Sys2Proof.Machine

open Sys2Proof.Machine

/-- Settles O7: every event that could free the line or make something wait ends in the arbiter's choice. -/
theorem lineNeverIdle : Obligations.LineNeverIdle := by
  intro s t h hs
  unfold step at hs
  split at hs
  · cases hs; exact h
  · rename_i c rest _
    exact exec_lineBusy (s := { s with pending := rest }) h hs

end

section
/-! RESET CHANNELS (R126): what the cancelled load and the reset of each channel leave, field by field. -/

open Sys2Proof

namespace Sys2Proof.Machine

variable {s u : State} {c : Chan} {k : LoadCtx}

/-! Reports. -/

/-- A report changes neither the mask nor whether the block is open (R147, R148). -/
theorem make_setup (b : ReportBlock) (r : ReportBody) : (b.make r).mask = b.mask ∧ (b.make r).isOpen = b.isOpen := by
  rw [ReportBlock.make, note_eq]
  rcases accept_cases b r with ⟨_, h⟩ | h | ⟨-, -, h⟩ | ⟨_, -, h⟩ <;> rw [h] <;> exact ⟨rfl, rfl⟩

/-- The report block after the reports of a channel that comes to rest: CHANNEL_STATE where it did not rest before,
then GATE_STATE where its gate was not CLOSED (R73, R104; assumption log 22). -/
def restReports (b : ReportBlock) (c : Chan) (rests closed : Prop) [Decidable rests] [Decidable closed]
    (hold : HoldSet) : ReportBlock :=
  let b1 := if rests then b else b.make (.channelState c .idle)
  if closed then b1 else b1.make (.gateState c .closed hold)

/-- The report block after the reports of a cancelled load: CHANNEL_STATE where its channel was not IDLE, then
LOAD_DONE (R179). -/
def State.cancelReports (s : State) : ReportBlock :=
  match s.loader.ctx with
  | none => s.reports
  | some k =>
    (if (s.chan k.chan).st = .idle then s.reports else s.reports.make (.channelState k.chan .idle)).make
      (loadDone k .cancelled 0xFF#8)

theorem restReports_kept (b : ReportBlock) (c : Chan) (rests closed : Prop) [Decidable rests] [Decidable closed]
    (hold : HoldSet) : (restReports b c rests closed hold).mask = b.mask ∧
      b.SameHolders (restReports b c rests closed hold) := by
  have h1 : (if rests then b else b.make (.channelState c .idle)).mask = b.mask ∧
      b.SameHolders (if rests then b else b.make (.channelState c .idle)) := by
    split
    · exact ⟨rfl, .rfl' b⟩
    · exact ⟨(make_setup b _).1, make_sameHolders b rfl⟩
  unfold restReports
  dsimp only
  split
  · exact h1
  · exact ⟨(make_setup _ _).1.trans h1.1, h1.2.trans (make_sameHolders _ rfl)⟩

theorem cancelReports_setup (s : State) :
    s.cancelReports.mask = s.reports.mask ∧ s.cancelReports.isOpen = s.reports.isOpen := by
  unfold State.cancelReports
  split
  · exact ⟨rfl, rfl⟩
  · obtain ⟨hm, ho⟩ := make_setup (if (s.chan _).st = .idle then s.reports
      else s.reports.make (.channelState _ .idle)) (loadDone _ .cancelled 0xFF#8)
    rw [hm, ho]
    split
    · exact ⟨rfl, rfl⟩
    · exact make_setup _ _

/-- In an open block the LOAD_DONE of a cancelled load takes the completion place (R144). -/
theorem cancelReports_completion (hc : s.loader.ctx = some k) (ho : s.reports.isOpen = true) :
    s.cancelReports.completion = some ⟨.loadDone k.seq k.chan k.area .cancelled 0xFF#8, 1⟩ := by
  simp only [State.cancelReports, hc]
  rw [make_completion (loadDone_class k _ _)]
  · rfl
  · split
    · exact ho
    · exact (make_setup _ _).2.trans ho

/-! The cancelled load. -/

/-- What the cancellation of the load in flight leaves, if there is one (R179). -/
structure LoadCancelled (s u : State) : Prop where
  chan : ∀ c, u.chan c = { s.chan c with
    st := if s.loader.ctx.map LoadCtx.chan = some c then .idle else (s.chan c).st }
  tone : ∀ i, (u.slot i).tone = (s.slot i).tone
  ctx : u.loader.ctx = none
  staging : s.loader.ctx.isSome = true ∨ s.loader.staging = [] → u.loader.staging = []
  auto : u.loader.auto = s.loader.auto ∧ u.loader.autoPos = s.loader.autoPos
  store : u.store = s.store
  epoch : u.epoch = s.epoch
  link : u.link = s.link
  gateLine : u.gateLine = s.gateLine
  reports : u.reports = s.cancelReports

theorem failLoad_reports (s : State) (k : LoadCtx) (st : Status) (detail : Byte) :
    (s.failLoad k st detail).reports =
      (if (s.chan k.chan).st = .idle then s.reports else s.reports.make (.channelState k.chan .idle)).make
        (loadDone k st detail) := by
  obtain ⟨-, -, hr, -⟩ := endLoad_kept s
  rw [State.failLoad, State.report_reports, enter_reports, endLoad_chan, hr]

theorem cancelLoad_cancelled (s : State) : LoadCancelled s s.cancelLoad := by
  cases hc : s.loader.ctx with
  | none =>
    rw [cancelLoad_none hc]
    exact ⟨fun c => by simp [hc], fun i => rfl, hc, fun h => by simpa [hc] using h, ⟨rfl, rfl⟩, rfl, rfl, rfl, rfl,
      by simp [State.cancelReports, hc]⟩
  | some k =>
    obtain ⟨hown, hother, hslot, hloader, hstore, hepoch, hlink, hline, -⟩ := failLoad_ended s k .cancelled 0xFF#8
    rw [cancelLoad_eq hc]
    refine ⟨fun c => ?_, fun i => by rw [hslot], by rw [hloader], fun _ => by rw [hloader],
      by rw [hloader]; exact ⟨rfl, rfl⟩, hstore, hepoch, hlink, hline, by simp [failLoad_reports, State.cancelReports, hc]⟩
    simp only [hc, Option.map_some, Option.some.injEq]
    rcases eq_or_ne k.chan c with rfl | hne
    · rw [if_pos rfl, hown]
    · have hcc : c = chanOther k.chan := by cases c <;> cases hk : k.chan <;> simp_all
      rw [if_neg hne, hcc, hother]

/-! The reset of each channel. -/

theorem resetChannel_reports (s : State) (c : Chan) : (s.resetChannel c).reports =
    restReports s.reports c ((s.chan c).st = .idle) ((s.chan c).gate.st = .closed) (s.holdAfterReset c) := by
  unfold State.resetChannel State.moveGate restReports
  dsimp only
  simp only [enter_chan, State.setChan_chan_same, apply_ite State.reports, State.setGate_reports, State.report_reports,
    enter_reports, State.setChan_reports, eq_comm (a := GateState.closed)]

theorem resetChannel_link (s : State) (c : Chan) : (s.resetChannel c).link = s.link := by simp [State.resetChannel]

/-- The hold sets that a reset leaves do not read what is reset before. -/
theorem cancelLoad_holdAfterReset (s : State) (c : Chan) : s.cancelLoad.holdAfterReset c = s.holdAfterReset c := by
  have hu := cancelLoad_cancelled s
  simp only [State.holdAfterReset, hu.chan, hu.gateLine]

theorem resetChannel_holdAfterReset (s : State) : (s.resetChannel .A).holdAfterReset .B = s.holdAfterReset .B := by
  obtain ⟨-, hother⟩ := resetChannel_cleared s .A
  obtain ⟨-, -, -, hline, -⟩ := resetChannel_kept s .A
  rw [chanOther_A] at hother
  rw [State.holdAfterReset, hother, hline]
  rfl

/-- Every channel after a CHANNELS reset (R43, R73, R86, R104). -/
theorem resetChannels_chan (s : State) (c : Chan) :
    s.resetChannels.chan c = (s.chan c).cleared (s.holdAfterReset c) := by
  have hclear (d : Chan) : (s.cancelLoad.chan d).cleared (s.cancelLoad.holdAfterReset d) =
      (s.chan d).cleared (s.holdAfterReset d) := by
    rw [cancelLoad_holdAfterReset, (cancelLoad_cancelled s).chan]
    rfl
  obtain ⟨hA, hAB⟩ := resetChannel_cleared s.cancelLoad .A
  obtain ⟨hB, hBA⟩ := resetChannel_cleared (s.cancelLoad.resetChannel .A) .B
  rw [State.resetChannels, unpinSlots_chan]
  cases c with
  | A => exact hBA.trans (hA.trans (hclear .A))
  | B =>
    rw [chanOther_A] at hAB
    rw [hB, resetChannel_holdAfterReset, hAB]
    exact hclear .B

theorem resetChannels_slot (s : State) (i : Fin 48) :
    s.resetChannels.slot i = { tone := (s.slot i).tone, pins := 0, reserved := false } := by
  obtain ⟨hA, -⟩ := resetChannel_kept s.cancelLoad .A
  obtain ⟨hB, -⟩ := resetChannel_kept (s.cancelLoad.resetChannel .A) .B
  rw [State.resetChannels, unpinSlots_slot, State.slot, hB, hA]
  exact congrArg (Slot.mk · 0 false) ((cancelLoad_cancelled s).tone i)

/-- What a CHANNELS reset leaves outside the channels, the slots and the reports. -/
theorem resetChannels_kept (s : State) : s.resetChannels.loader = s.cancelLoad.loader ∧
    s.resetChannels.epoch = s.epoch ∧ s.resetChannels.store = s.store ∧ s.resetChannels.gateLine = s.gateLine ∧
    s.resetChannels.link = s.link := by
  have hu := cancelLoad_cancelled s
  obtain ⟨-, a1, a2, a3, a4, -⟩ := resetChannel_kept s.cancelLoad .A
  obtain ⟨-, b1, b2, b3, b4, -⟩ := resetChannel_kept (s.cancelLoad.resetChannel .A) .B
  obtain ⟨c1, c2, c3, -, c4⟩ := unpinSlots_kept ((s.cancelLoad.resetChannel .A).resetChannel .B)
  refine ⟨c2.trans (b2.trans a2), c4.trans (b4.trans (a4.trans hu.epoch)), c1.trans (b1.trans (a1.trans hu.store)),
    c3.trans (b3.trans (a3.trans hu.gateLine)), ?_⟩
  have hl (v : State) : v.unpinSlots.link = v.link := by simp [State.unpinSlots]
  rw [State.resetChannels, hl, resetChannel_link, resetChannel_link, hu.link]

/-- The reports of a CHANNELS reset: those of the cancelled load, then A's, then B's (assumption log 22). -/
theorem resetChannels_reports (s : State) :
    let rests := fun c => (s.chan c).st = .idle ∨ s.loader.ctx.map LoadCtx.chan = some c
    s.resetChannels.reports =
      restReports (restReports s.cancelReports .A (rests .A) (s.chA.gate.st = .closed) (s.holdAfterReset .A)) .B
        (rests .B) (s.chB.gate.st = .closed) (s.holdAfterReset .B) := by
  intro rests
  have hu := cancelLoad_cancelled s
  have hrest (c : Chan) : (s.cancelLoad.chan c).st = .idle ↔ rests c := by
    rw [hu.chan]
    dsimp only [rests]
    split
    · rename_i h; simp [h]
    · rename_i h; simp [h]
  obtain ⟨-, hAB⟩ := resetChannel_cleared s.cancelLoad .A
  obtain ⟨-, -, -, hr, -⟩ := unpinSlots_kept ((s.cancelLoad.resetChannel .A).resetChannel .B)
  rw [chanOther_A] at hAB
  rw [State.resetChannels, hr, resetChannel_reports, resetChannel_reports, hAB, resetChannel_holdAfterReset,
    cancelLoad_holdAfterReset, cancelLoad_holdAfterReset, hu.reports]
  simp only [hrest]
  simp only [hu.chan, State.chan_A, State.chan_B]

end Sys2Proof.Machine

open Sys2Proof.Machine

/-- Settles O14: the cancelled load, then each channel at rest, then the pins. -/
theorem resetChannelsActs : Obligations.ResetChannelsActs := by
  intro s r h e
  have hu := cancelLoad_cancelled e
  have hchan := resetChannels_chan e
  obtain ⟨hloader, hepoch, hstore, hline, hlink⟩ := resetChannels_kept e
  have hreports := resetChannels_reports e
  obtain ⟨hAmask, hAheld⟩ := restReports_kept e.cancelReports .A
    (e.chA.st = .idle ∨ e.loader.ctx.map LoadCtx.chan = some .A) (e.chA.gate.st = .closed) (e.holdAfterReset .A)
  obtain ⟨hBmask, hBheld⟩ := restReports_kept (restReports e.cancelReports .A
    (e.chA.st = .idle ∨ e.loader.ctx.map LoadCtx.chan = some .A) (e.chA.gate.st = .closed) (e.holdAfterReset .A)) .B
    (e.chB.st = .idle ∨ e.loader.ctx.map LoadCtx.chan = some .B) (e.chB.gate.st = .closed) (e.holdAfterReset .B)
  refine ⟨e.resetChannels, congrArg Host.Outcome.next (request_answers h rfl), resetChannels_slot e, fun c => ?_,
    by rw [hloader]; exact hu.ctx, fun hs => by rw [hloader]; exact hu.staging hs, by rw [hloader]; exact hu.auto.1,
    by rw [hloader]; exact hu.auto.2, hepoch, hstore, ?_, ?_, hline, hlink, fun k hk ho => ?_, ?_⟩
  · rw [hchan]
    exact ⟨rfl, rfl, rfl, rfl, rfl, rfl, rfl, rfl, rfl, rfl, rfl, rfl, rfl⟩
  · rw [hreports]
    exact hBmask.trans (hAmask.trans (cancelReports_setup e).1)
  · rw [hreports]
    exact hBheld.isOpen.trans (hAheld.isOpen.trans (cancelReports_setup e).2)
  · rw [hreports]
    exact hBheld.completion.trans (hAheld.completion.trans (cancelReports_completion hk ho))
  · simp only [hchan]
    exact hreports

end

section
/-! The arbiter's order (R122), the autostart list that the departure of POWER_UP forms (R181), and the frame of each
report (R130, R131, R137). -/

open Sys2Proof

namespace Sys2Proof.Machine

variable {s : State} {q : Report} {rest : List Report}

/-! The arbiter. -/

theorem finish_busy (h : s.link.tx.isSome = true ∨ s.link.fullResetDue = true) : s.finish = s.drivePorts := by
  have hb : (s.link.tx.isSome || s.link.fullResetDue) = true := by simpa using h
  rw [State.finish, State.arbitrate, if_pos hb]

/-- The line is free, and no FULL reset is due. -/
structure State.LineFree (s : State) : Prop where
  tx : s.link.tx = none
  due : s.link.fullResetDue = false

theorem finish_waiting (h : s.LineFree) {o : Outgoing} {rest : List Outgoing} (hw : s.link.waiting = o :: rest) :
    s.finish = State.drivePorts { s with link := { s.link with waiting := rest, tx := some o } } := by
  simp only [State.finish, State.arbitrate, h.tx, h.due, hw]
  rfl

theorem finish_completion (h : s.LineFree) (hw : s.link.waiting = []) (hc : s.reports.completion = some q) :
    s.finish = (s.sendCompletion q).drivePorts := by
  simp only [State.finish, State.arbitrate, h.tx, h.due, hw, hc]
  rfl

theorem finish_head (h : s.LineFree) (hw : s.link.waiting = []) (hc : s.reports.completion = none)
    (hq : s.reports.queue = q :: rest) : s.finish = (s.sendHead q).drivePorts := by
  simp only [State.finish, State.arbitrate, h.tx, h.due, hw, hc, hq]
  rfl

theorem finish_nothing (h : s.LineFree) (hw : s.link.waiting = []) (hc : s.reports.completion = none)
    (hq : s.reports.queue = []) : s.finish = s.drivePorts := by
  simp only [State.finish, State.arbitrate, h.tx, h.due, hw, hc, hq]
  rfl

/-- The head that leaves brings autostart exactly where it is POWER_UP (R148). -/
theorem sendHead_eq (s : State) (q : Report) : s.sendHead q =
    let s1 := { s.transmit (.report (s.reports.frame q)) with reports := s.reports.departHead }
    if isPowerUp q then s1.powerUpLeaves else s1 := by
  obtain ⟨body, n⟩ := q
  cases body <;> rfl

/-! The autostart list (R181). -/

theorem commit_of_autostartRec {d : Dir} {r : CommitRec} (h : d.autostartRec = some r) : d.commit = some r := by
  unfold Dir.autostartRec at h
  split at h
  · obtain ⟨r', hr', hif⟩ := Option.bind_eq_some_iff.mp h
    split at hif
    · rw [hr', hif]
    · cases hif
  · cases h

theorem autoList_areas (st : Store) (areas : List (Fin 8)) (named : List Chan) :
    (autoList st areas named).map AutoArea.area = areas.filter fun a => (st.dir a).autostartRec.isSome := by
  induction areas generalizing named with
  | nil => rfl
  | cons a rest ih =>
    unfold autoList
    cases hr : (st.dir a).autostartRec <;> simp [hr, ih]

/-- An area is chosen where it is the first to name its channel. -/
theorem autoList_chosen (st : Store) (areas : List (Fin 8)) (named : List Chan) {before after : List AutoArea}
    {x : AutoArea} (h : autoList st areas named = before ++ x :: after) :
    (x.chosen = true ↔ x.chan ∉ named ∧ ∀ y ∈ before, y.chan ≠ x.chan) ∧
      (st.dir x.area).commit.map CommitRec.chan = some x.chan := by
  induction areas generalizing named before with
  | nil => simp [autoList] at h
  | cons a rest ih =>
    unfold autoList at h
    cases hr : (st.dir a).autostartRec with
    | none =>
      simp only [hr] at h
      exact ih named h
    | some r =>
      simp only [hr] at h
      cases before with
      | nil =>
        obtain ⟨rfl, -⟩ := List.cons.inj h
        simp [commit_of_autostartRec hr]
      | cons y before =>
        obtain ⟨rfl, htail⟩ := List.cons.inj h
        obtain ⟨hchosen, hchan⟩ := ih _ htail
        refine ⟨hchosen.trans ?_, hchan⟩
        simp only [List.mem_cons, not_or, forall_eq_or_imp, ne_eq, eq_comm (a := x.chan)]
        tauto

/-! Codes and payloads (Tables 7-6, 7-11). -/

theorem holdCode_bits (h : HoldSet) {i : Nat} (hi : i < 8) :
    (holdCode h).getLsbD i = [h.host, h.line, h.blank, h.ending, h.noHop].getD i false := by
  have hall : ∀ (host line blank ending noHop : Bool) (i : Fin 8),
      (holdCode ⟨host, line, blank, ending, noHop⟩).getLsbD i.val =
        [host, line, blank, ending, noHop].getD i.val false := by decide
  exact hall h.host h.line h.blank h.ending h.noHop ⟨i, hi⟩

theorem tagBytes_eq (tag : Option (BitVec 16)) (rest : List Byte) :
    tagBytes tag ++ rest = (match tag with | none => [0#8, 0#8, 0#8] | some t => 1#8 :: be16 t) ++ rest := by
  cases tag <;> rfl

end Sys2Proof.Machine

open Sys2Proof.Machine

/-- Settles O56: the arbiter's branches in order, the autostart list by induction on the areas, and the codes. -/
theorem arbiterOrder : Obligations.ArbiterOrder := by
  refine ⟨fun s => ⟨finish_busy, fun ht hf => ?_⟩, ?_, rfl, rfl, rfl, rfl, rfl, rfl, fun h i => holdCode_bits h,
    rfl, rfl, rfl, rfl⟩
  · have hfree : s.LineFree := ⟨ht, hf⟩
    refine ⟨fun o rest hw => finish_waiting hfree hw, fun q hw hc => finish_completion hfree hw hc,
      fun hw hc hq => finish_nothing hfree hw hc hq, fun q rest hw hc hq => ?_⟩
    rw [finish_head hfree hw hc hq, sendHead_eq]
    simp only [State.drivePorts_link, State.drivePorts_reports, State.drivePorts_store, State.drivePorts_loader]
    refine ⟨?_, ?_, fun hp => ?_, fun hp => ?_⟩
    · split <;> rfl
    · have hd : s.reports.departHead = { s.reports with
          queue := if 0 < s.reports.lost then rest ++ [⟨.reportsLost s.reports.lost, 1⟩] else rest,
          lost := 0, nextSeq := s.reports.nextSeq + 1#8,
          begun := min s.reports.begun (rest.countP Report.isHopBegin) } := by
        simp only [ReportBlock.departHead, hq, List.tail_cons]
      rw [← hd]
      split <;> rfl
    · rw [if_neg (by simp [hp])]
      exact ⟨rfl, rfl⟩
    · rw [if_pos hp]
      let st : Store := { s.store with engine := .idle }
      refine ⟨rfl, rfl, rfl, autoList_areas st _ [], fun before x after h => ?_⟩
      obtain ⟨hchosen, hchan⟩ := autoList_chosen st _ [] h
      exact ⟨by simpa using hchosen, hchan⟩
  · intro n k c slot tag count seq detail area st tagged sent
    have htag (rest : List Byte) : tagBytes tag ++ rest = tagged rest := tagBytes_eq tag rest
    have hframe {body : ReportBody} {kind : Byte} {payload : List Byte} (hk : reportKind body = kind)
        (hp : reportPayload ⟨body, k⟩ = payload) : sent body kind payload := by
      rw [← hk, ← hp]
      rfl
    refine ⟨fun _ _ => rfl, hframe rfl ?_, fun _ => rfl, hframe rfl ?_, fun _ => rfl, fun _ _ => rfl, fun _ => rfl,
      hframe rfl ?_, fun _ _ => rfl, rfl, fun _ => rfl, fun _ => rfl⟩
    · rw [← htag]; rfl
    · rw [← htag]; rfl
    · rw [← htag, List.append_nil]; rfl

end

section
/-! Program images: what each test of Table 9-7 answers, and the fields that a record gives (R135, R160, R161). -/

open Sys2Proof

namespace Sys2Proof.Machine

variable {img : Nat → Byte} {i j n d : Nat} {k : Fin 48}

/-! Fields of a record at an offset of the image. -/

theorem u16At_shift (img : Nat → Byte) (base i : Nat) : u16At (fun x => img (base + x)) i = u16At img (base + i) := rfl

theorem u24At_shift (img : Nat → Byte) (base i : Nat) : u24At (fun x => img (base + x)) i = u24At img (base + i) := rfl

/-- The slot a byte names is the byte's value. -/
theorem slotOf_val {b : Byte} (h : slotOf b = some k) : k.val = b.toNat := by
  unfold slotOf at h
  split at h
  · cases h; rfl
  · cases h

/-! Slot records (Table 7-14, reasons 6 to 8). -/

@[simp] theorem slotRecord_index (img : Nat → Byte) (base : Nat) : (slotRecord img base).index = img base := rfl

/-- What slot record `i` of an image writes. -/
def slotTone (img : Nat → Byte) (i : Nat) : Option (Fin 48 × Tone) := toneOfRecord (slotRecord img (slotRecordAt i))

/-- The index of slot record `i` stands in an earlier slot record (reason 7). -/
def SlotRepeated (img : Nat → Byte) (i : Nat) : Prop := ∃ j, j < i ∧ img (slotRecordAt j) = img (slotRecordAt i)

/-- The word or the label of slot record `i` is out of range (reason 8). -/
def ToneBad (img : Nat → Byte) (i : Nat) : Prop :=
  u32At img (slotRecordAt i + 1) = 0#32 ∨ 8 < (img (slotRecordAt i + 7)).toNat ∨
    ∃ n, n < (img (slotRecordAt i + 7)).toNat ∧
      ((img (slotRecordAt i + 8 + n)).toNat < 0x20 ∨ 0x7E < (img (slotRecordAt i + 8 + n)).toNat)

/-- None of the reasons 6 to 8 holds of slot record `i`. -/
def SlotPasses (img : Nat → Byte) (i : Nat) : Prop :=
  (img (slotRecordAt i)).toNat < 48 ∧ ¬SlotRepeated img i ∧ ¬ToneBad img i

/-- The tone that slot record `i` spells, whatever its ranges. -/
def toneAt (img : Nat → Byte) (i : Nat) : Tone :=
  { word := u32At img (slotRecordAt i + 1), offset := u16At img (slotRecordAt i + 5),
    label := if img (slotRecordAt i + 7) = 0#8 then none
      else some ((List.range (img (slotRecordAt i + 7)).toNat).map fun n => img (slotRecordAt i + 8 + n)) }

/-- The characters of a slot record whose label length is in range. -/
theorem slotRecord_chars (h : (img (slotRecordAt i + 7)).toNat ≤ 8) : (slotRecord img (slotRecordAt i)).chars =
    (List.range (img (slotRecordAt i + 7)).toNat).map fun n => img (slotRecordAt i + 8 + n) := by
  simp only [slotRecord, Nat.min_eq_right h, Nat.add_assoc]

theorem labelOf_slotRecord (h : (img (slotRecordAt i + 7)).toNat ≤ 8) :
    labelOf (slotRecord img (slotRecordAt i)).chars = (toneAt img i).label := by
  rw [slotRecord_chars h, labelOf_eq, toneAt]
  simp only [List.map_eq_nil_iff, List.range_eq_nil, ← BitVec.toNat_inj, BitVec.toNat_ofNat, Nat.zero_mod]

theorem toneBad_iff : ToneBad img i ↔ (slotRecord img (slotRecordAt i)).word = 0#32 ∨
    8 < (slotRecord img (slotRecordAt i)).labelLength.toNat ∨
    (slotRecord img (slotRecordAt i)).chars.all printable = false := by
  by_cases h : 8 < (img (slotRecordAt i + 7)).toNat
  · simp [ToneBad, slotRecord, h]
  · have hall : (slotRecord img (slotRecordAt i)).chars.all printable = false ↔
        ∃ n, n < (img (slotRecordAt i + 7)).toNat ∧
          ((img (slotRecordAt i + 8 + n)).toNat < 0x20 ∨ 0x7E < (img (slotRecordAt i + 8 + n)).toNat) := by
      rw [slotRecord_chars (Nat.le_of_not_lt h), ← Bool.not_eq_true, all_printable_iff]
      simp only [List.forall_mem_map, List.mem_range, not_forall, not_and_or, Nat.not_le, exists_prop]
    rw [hall]
    rfl

theorem slotTone_none (hk : slotOf (img (slotRecordAt i)) = some k) (h : ToneBad img i) : slotTone img i = none := by
  rw [toneBad_iff] at h
  rw [slotTone, toneOfRecord, slotRecord_index, hk]
  exact if_pos (by simpa [or_assoc] using h)

theorem slotTone_some (hk : slotOf (img (slotRecordAt i)) = some k) (h : ¬ToneBad img i) :
    slotTone img i = some (k, toneAt img i) := by
  have hlen : (img (slotRecordAt i + 7)).toNat ≤ 8 := Nat.le_of_not_lt fun h8 => h (.inr (.inl h8))
  rw [toneBad_iff] at h
  rw [slotTone, toneOfRecord, slotRecord_index, hk]
  refine (if_neg (by simpa [or_assoc] using h)).trans ?_
  rw [labelOf_slotRecord hlen]
  rfl

/-- A slot record that passes its tests writes its tone in the slot of its index. -/
theorem SlotPasses.tone (h : SlotPasses img i) :
    ∃ k : Fin 48, k.val = (img (slotRecordAt i)).toNat ∧ slotTone img i = some (k, toneAt img i) :=
  ⟨⟨_, h.1⟩, rfl, slotTone_some (slotOf_some rfl) h.2.2⟩

/-! The tests of the slot records, one record at a time. -/

theorem testSlots_index (h : 48 ≤ (img (slotRecordAt i)).toNat) (seen : List (Fin 48)) :
    testSlots img (n + 1) i seen = .error (6, slotRecordAt i) := by
  rw [testSlots]
  simp only [slotRecord_index, slotOf_none h]

theorem testSlots_repeated {seen : List (Fin 48)} (hk : slotOf (img (slotRecordAt i)) = some k) (h : k ∈ seen) :
    testSlots img (n + 1) i seen = .error (7, slotRecordAt i) := by
  rw [testSlots]
  simp only [slotRecord_index, hk, List.contains_iff_mem.mpr h, if_true]

theorem testSlots_tone {seen : List (Fin 48)} (hk : slotOf (img (slotRecordAt i)) = some k) (h : k ∉ seen)
    (hbad : ToneBad img i) : testSlots img (n + 1) i seen = .error (8, slotRecordAt i) := by
  have htone : toneOfRecord (slotRecord img (slotRecordAt i)) = none := slotTone_none hk hbad
  rw [testSlots]
  simp [hk, h, htone]

theorem testSlots_passes {seen : List (Fin 48)} (hk : slotOf (img (slotRecordAt i)) = some k) (h : k ∉ seen)
    (hgood : ¬ToneBad img i) : testSlots img (n + 1) i seen =
      (testSlots img n (i + 1) (k :: seen)).map ((k, toneAt img i) :: ·) := by
  have htone : toneOfRecord (slotRecord img (slotRecordAt i)) = some (k, toneAt img i) := slotTone_some hk hgood
  rw [testSlots]
  simp only [slotRecord_index, hk, List.contains_iff_mem, h, if_false, htone]
  cases testSlots img n (i + 1) (k :: seen) <;> rfl

/-! Records that have passed. -/

/-- One of the records that were read in order. -/
theorem read_getElem? {α : Type} {xs : List α} {f : Nat → Option α} (h : xs.map some = (List.range d).map f)
    (hi : i < d) : ∃ x, xs[i]? = some x ∧ f i = some x := by
  have hat : xs[i]?.map some = some (f i) := by simpa [hi] using congrArg (·[i]?) h
  obtain ⟨x, hx, hfx⟩ := Option.map_eq_some_iff.mp hat
  exact ⟨x, hx, hfx.symm⟩

theorem read_length {α : Type} {xs : List α} {f : Nat → Option α} (h : xs.map some = (List.range d).map f) :
    xs.length = d := by simpa using congrArg List.length h

theorem read_snoc {α : Type} {xs : List α} {x : α} {f : Nat → Option α} (h : xs.map some = (List.range d).map f)
    (hx : f d = some x) : (xs ++ [x]).map some = (List.range (d + 1)).map f := by
  simp [List.range_succ, h, hx]

/-- The slots of the first `d` slot records. -/
theorem mem_declared {ts : List (Fin 48 × Tone)} (h : ts.map some = (List.range d).map (slotTone img))
    (hgood : ∀ i, i < d → SlotPasses img i) :
    k ∈ ts.map Prod.fst ↔ ∃ i, i < d ∧ (img (slotRecordAt i)).toNat = k.val := by
  have hread : ∀ q, q ∈ ts ↔ ∃ i, i < d ∧ slotTone img i = some q := fun q => by
    rw [← List.mem_map_of_injective (Option.some_injective _), h]
    simp
  simp only [List.mem_map, hread]
  constructor
  · rintro ⟨q, ⟨i, hi, hq⟩, rfl⟩
    obtain ⟨k', hk', ht⟩ := (hgood i hi).tone
    obtain rfl := Option.some.inj (hq.symm.trans ht)
    exact ⟨i, hi, hk'.symm⟩
  · rintro ⟨i, hi, hk⟩
    obtain ⟨k', hk', ht⟩ := (hgood i hi).tone
    exact ⟨_, ⟨i, hi, ht⟩, Fin.ext (hk'.trans hk)⟩

/-- An index repeats where the earlier records have declared it (reason 7). -/
theorem slotRepeated_iff {ts : List (Fin 48 × Tone)} (h : ts.map some = (List.range d).map (slotTone img))
    (hgood : ∀ i, i < d → SlotPasses img i) (hk : k.val = (img (slotRecordAt d)).toNat) :
    SlotRepeated img d ↔ k ∈ (ts.map Prod.fst).reverse := by
  rw [List.mem_reverse, mem_declared h hgood, hk]
  simp only [BitVec.toNat_inj]
  rfl

/-- No record stands before the first one. -/
theorem map_nil_append {ε α : Type} (x : Except ε (List α)) : x.map ([] ++ ·) = x := by cases x <;> rfl

/-- Slot records that pass are read, and the tests go on after them with their slots seen. -/
theorem testSlots_skip (hgood : ∀ i, i < d → SlotPasses img i) :
    ∃ ts : List (Fin 48 × Tone), ts.map some = (List.range d).map (slotTone img) ∧
      ∀ n, testSlots img (d + n) 0 [] = (testSlots img n d (ts.map Prod.fst).reverse).map (ts ++ ·) := by
  induction d with
  | zero => exact ⟨[], rfl, fun n => by rw [Nat.zero_add]; exact (map_nil_append _).symm⟩
  | succ d ih =>
    have hprior : ∀ i, i < d → SlotPasses img i := fun i hi => hgood i (hi.trans d.lt_succ_self)
    obtain ⟨hlt, hnew, htone⟩ := hgood d d.lt_succ_self
    obtain ⟨ts, hts, hskip⟩ := ih hprior
    let k : Fin 48 := ⟨_, hlt⟩
    have hk : slotOf (img (slotRecordAt d)) = some k := slotOf_some rfl
    rw [slotRepeated_iff hts hprior (k := k) rfl] at hnew
    refine ⟨ts ++ [(k, toneAt img d)], read_snoc hts (slotTone_some hk htone), fun n => ?_⟩
    rw [Nat.add_right_comm, Nat.add_assoc, hskip, testSlots_passes hk hnew htone, List.map_append, List.reverse_append]
    simp only [List.map_cons, List.map_nil, List.reverse_singleton, List.singleton_append]
    cases testSlots img n (d + 1) _ <;> simp [Except.map]

/-! Hop records (Table 7-15, reasons 9 and 10). -/

/-- The hop that hop record `j` of an image appends. -/
def hopEntryAt (img : Nat → Byte) (j : Nat) : Option HopEntry :=
  entryOf (hopRecord img (hopRecordAt (imageSlots img) j))

/-- Hop record `j` names no declared slot (reason 9). -/
def HopUndeclared (img : Nat → Byte) (j : Nat) : Prop :=
  ∀ i, i < imageSlots img → img (slotRecordAt i) ≠ img (hopRecordAt (imageSlots img) j)

/-- A field of hop record `j` is out of range (reason 10). -/
def HopBad (img : Nat → Byte) (j : Nat) : Prop :=
  let base := hopRecordAt (imageSlots img) j
  u24At img (base + 2) = 0#24 ∨ 32767 < (u16At img (base + 5)).toNat ∨ (img (base + 1)).toNat % 4 = 3 ∨
    ((img (base + 1)).getLsbD 6 = true ↔ (img (base + 1)).toNat / 4 % 4 ≠ 2)

/-- Neither reason 9 nor reason 10 holds of hop record `j`. -/
def HopPasses (img : Nat → Byte) (j : Nat) : Prop := ¬HopUndeclared img j ∧ ¬HopBad img j

theorem hopBad_iff (img : Nat → Byte) (j : Nat) (k : Fin 48) :
    HopBad img j ↔ entryWithSlot k (hopRecord img (hopRecordAt (imageSlots img) j)) = none := by
  rw [← Option.isNone_iff_eq_none, entryWithSlot_isNone, modeOf_isNone, triggerOf_isNone]
  simp only [HopBad, hopRecord, u16At_shift, u24At_shift]
  tauto

/-- A list of slots is the declared slot-use set of an image (R135). -/
structure DeclaredBy (img : Nat → Byte) (declared : List (Fin 48)) : Prop where
  ofRecord : ∀ i, i < imageSlots img → ∃ k ∈ declared, k.val = (img (slotRecordAt i)).toNat
  record : ∀ k ∈ declared, ∃ i, i < imageSlots img ∧ (img (slotRecordAt i)).toNat = k.val

theorem declaredBy_of_read {ts : List (Fin 48 × Tone)}
    (h : ts.map some = (List.range (imageSlots img)).map (slotTone img))
    (hgood : ∀ i, i < imageSlots img → SlotPasses img i) : DeclaredBy img (ts.map Prod.fst) :=
  ⟨fun i hi => ⟨⟨_, (hgood i hi).1⟩, (mem_declared h hgood).mpr ⟨i, hi, rfl⟩, rfl⟩,
    fun _ hk => (mem_declared h hgood).mp hk⟩

/-! The tests of the hop records, one record at a time. -/

section
variable {declared : List (Fin 48)} (hd : DeclaredBy img declared)
include hd

theorem testHops_undeclared (h : HopUndeclared img j) :
    testHops img (imageSlots img) declared (n + 1) j = .error (9, hopRecordAt (imageSlots img) j) := by
  rw [testHops]
  cases hk : slotOf (hopRecord img (hopRecordAt (imageSlots img) j)).slot with
  | none => rfl
  | some k =>
    have hnot : k ∉ declared := fun hmem => by
      obtain ⟨i, hi, hik⟩ := hd.record k hmem
      exact h i hi (BitVec.eq_of_toNat_eq (hik.trans (slotOf_val hk)))
    simp [hnot]

/-- The slot of a hop record that names a declared one. -/
theorem DeclaredBy.slot (h : ¬HopUndeclared img j) :
    ∃ k ∈ declared, slotOf (hopRecord img (hopRecordAt (imageSlots img) j)).slot = some k := by
  simp only [HopUndeclared, not_forall, not_not] at h
  obtain ⟨i, hi, hij⟩ := h
  obtain ⟨k, hmem, hk⟩ := hd.ofRecord i hi
  exact ⟨k, hmem, slotOf_some (hk.trans (congrArg BitVec.toNat hij))⟩

theorem testHops_bad (h : ¬HopUndeclared img j) (hbad : HopBad img j) :
    testHops img (imageSlots img) declared (n + 1) j = .error (10, hopRecordAt (imageSlots img) j) := by
  obtain ⟨k, hmem, hk⟩ := hd.slot h
  rw [testHops]
  simp [hk, hmem, (hopBad_iff img j k).mp hbad]

theorem testHops_passes (h : HopPasses img j) : ∃ e, hopEntryAt img j = some e ∧
    ∀ n, testHops img (imageSlots img) declared (n + 1) j =
      (testHops img (imageSlots img) declared n (j + 1)).map (e :: ·) := by
  obtain ⟨k, hmem, hk⟩ := hd.slot h.1
  obtain ⟨e, he⟩ := Option.ne_none_iff_exists'.mp (mt (hopBad_iff img j k).mpr h.2)
  refine ⟨e, by simp only [hopEntryAt, entryOf, hk, he], fun n => ?_⟩
  rw [testHops]
  simp only [hk, List.contains_iff_mem.mpr hmem, Bool.not_true, Bool.false_eq_true, if_false, he]
  cases testHops img (imageSlots img) declared n (j + 1) <;> rfl

/-- Hop records that pass are read, and the tests go on after them. -/
theorem testHops_skip (hgood : ∀ j, j < d → HopPasses img j) :
    ∃ es : List HopEntry, es.map some = (List.range d).map (hopEntryAt img) ∧
      ∀ n, testHops img (imageSlots img) declared (d + n) 0 =
        (testHops img (imageSlots img) declared n d).map (es ++ ·) := by
  induction d with
  | zero => exact ⟨[], rfl, fun n => by rw [Nat.zero_add]; exact (map_nil_append _).symm⟩
  | succ d ih =>
    obtain ⟨es, hes, hskip⟩ := ih fun j hj => hgood j (hj.trans d.lt_succ_self)
    obtain ⟨e, he, hstep⟩ := testHops_passes hd (hgood d d.lt_succ_self)
    refine ⟨es ++ [e], read_snoc hes he, fun n => ?_⟩
    rw [Nat.add_right_comm, Nat.add_assoc, hskip, hstep]
    cases testHops img (imageSlots img) declared n (d + 1) <;> simp [Except.map]

end

/-! The fields of a hop that a record gives (Table 7-10, R135). -/

theorem modeOf_code {flags : Byte} {m : Mode} (h : modeOf flags = some m) : modeCode m = flags.toNat % 4 := by
  have hbits : (flags.extractLsb' 0 2).toNat = flags.toNat % 4 := by simp [BitVec.extractLsb'_toNat]
  rw [modeOf, hbits] at h
  split at h <;> cases h
  all_goals
    rename_i hm
    exact hm.symm

theorem triggerOf_fields {flags : Byte} {time : BitVec 48} {g : Trigger} (h : triggerOf flags time = some g) :
    triggerCode g = flags.toNat / 4 % 4 ∧ triggerTime g = if flags.getLsbD 6 then some time else none := by
  have hbits : (flags.extractLsb' 2 2).toNat = flags.toNat / 4 % 4 := by
    simp [BitVec.extractLsb'_toNat, Nat.shiftRight_eq_div_pow]
  rw [triggerOf, hbits] at h
  split at h <;> cases h
  all_goals
    rename_i hg ht
    rw [hg, ht]
    exact ⟨rfl, rfl⟩

theorem entryWithSlot_fields {r : RawEntry} {q : HopEntry} (h : entryWithSlot k r = some q) :
    ∃ mode trigger, modeOf r.flags = some mode ∧ triggerOf r.flags r.time = some trigger ∧
      q = { slot := k, dwell := r.dwell, amplitude := r.amplitude, mode := mode, trigger := trigger,
            blank := r.flags.getLsbD 4, report := r.flags.getLsbD 5,
            tag := if r.flags.getLsbD 7 then some r.tag else none } := by
  unfold entryWithSlot at h
  split at h
  · rename_i mode trigger hm hg
    split at h
    · cases h
    · split at h
      · cases h
      · exact ⟨mode, trigger, hm, hg, (Option.some.inj h).symm⟩
  · cases h

/-- A hop that a load appends has every field of its record (R135, Table 7-15). -/
theorem hopEntryAt_fields {q : HopEntry} (h : hopEntryAt img j = some q) :
    let base := hopRecordAt (imageSlots img) j
    q.slot.val = (img base).toNat ∧ q.dwell = u24At img (base + 2) ∧ q.amplitude = u16At img (base + 5) ∧
      modeCode q.mode = (img (base + 1)).toNat % 4 ∧ triggerCode q.trigger = (img (base + 1)).toNat / 4 % 4 ∧
      triggerTime q.trigger = (if (img (base + 1)).getLsbD 6 then some (u48At img (base + 7)) else none) ∧
      q.blank = (img (base + 1)).getLsbD 4 ∧ q.report = (img (base + 1)).getLsbD 5 ∧
      q.tag = if (img (base + 1)).getLsbD 7 then some (u16At img (base + 13)) else none := by
  unfold hopEntryAt entryOf at h
  split at h
  · rename_i k hk
    obtain ⟨mode, trigger, hmode, htrigger, rfl⟩ := entryWithSlot_fields h
    obtain ⟨hcode, htime⟩ := triggerOf_fields htrigger
    exact ⟨slotOf_val hk, rfl, rfl, modeOf_code hmode, hcode, htime, rfl, rfl, rfl⟩
  · cases h

/-! The records of an image together (R161, tests 6 and 7). -/

theorem parseRecords_slotFault {e : Nat × Nat} (hi : i < imageSlots img) (hprior : ∀ j, j < i → SlotPasses img j)
    (hfault : ∀ (ts : List (Fin 48 × Tone)) n, ts.map some = (List.range i).map (slotTone img) →
      testSlots img (n + 1) i (ts.map Prod.fst).reverse = .error e) : parseRecords img = .error e := by
  obtain ⟨ts, hts, hskip⟩ := testSlots_skip hprior
  obtain ⟨n, hn⟩ := Nat.exists_eq_add_of_lt hi
  have htest : testSlots img (imageSlots img) 0 [] = .error e := by
    rw [hn, Nat.add_assoc, hskip, hfault ts n hts]
    rfl
  rw [parseRecords, htest]

/-- Slot records that all pass are read, and their slots are the declared ones. -/
theorem parseRecords_slots (hgood : ∀ i, i < imageSlots img → SlotPasses img i) :
    ∃ ts : List (Fin 48 × Tone), ts.map some = (List.range (imageSlots img)).map (slotTone img) ∧
      DeclaredBy img (ts.map Prod.fst) ∧
      parseRecords img = (testHops img (imageSlots img) (ts.map Prod.fst) (imageHops img) 0).map (Program.mk ts) := by
  obtain ⟨ts, hts, hskip⟩ := testSlots_skip hgood
  have htest : testSlots img (imageSlots img) 0 [] = .ok ts := (hskip 0).trans (congrArg Except.ok (List.append_nil ts))
  refine ⟨ts, hts, declaredBy_of_read hts hgood, ?_⟩
  simp only [parseRecords, htest]
  cases testHops img (imageSlots img) (ts.map Prod.fst) (imageHops img) 0 <;> rfl

theorem parseRecords_hopFault {e : Nat × Nat} (hgood : ∀ i, i < imageSlots img → SlotPasses img i)
    (hj : j < imageHops img) (hprior : ∀ h, h < j → HopPasses img h)
    (hfault : ∀ (declared : List (Fin 48)) n, DeclaredBy img declared →
      testHops img (imageSlots img) declared (n + 1) j = .error e) : parseRecords img = .error e := by
  obtain ⟨ts, -, hd, hparse⟩ := parseRecords_slots hgood
  obtain ⟨es, -, hskip⟩ := testHops_skip hd hprior
  obtain ⟨n, hn⟩ := Nat.exists_eq_add_of_lt hj
  rw [hparse, hn, Nat.add_assoc, hskip, hfault _ n hd]
  rfl

theorem parseRecords_passes (hgood : ∀ i, i < imageSlots img → SlotPasses img i)
    (hhops : ∀ j, j < imageHops img → HopPasses img j) : ∃ p : Program, parseRecords img = .ok p ∧
      p.slots.map some = (List.range (imageSlots img)).map (slotTone img) ∧
      p.hops.map some = (List.range (imageHops img)).map (hopEntryAt img) := by
  obtain ⟨ts, hts, hd, hparse⟩ := parseRecords_slots hgood
  obtain ⟨es, hes, hskip⟩ := testHops_skip hd hhops
  refine ⟨⟨ts, es⟩, ?_, hts, hes⟩
  rw [hparse, ← Nat.add_zero (imageHops img), hskip]
  exact congrArg (fun xs => Except.ok (Program.mk ts xs)) (List.append_nil es)

/-! The header (Table 7-13, reasons 1 to 5). -/

theorem countsInRange_iff (img : Nat → Byte) :
    countsInRange img = true ↔ imageSlots img ≤ 48 ∧ 1 ≤ imageHops img ∧ imageHops img ≤ 64 := by
  simp [countsInRange, Nat.one_le_iff_ne_zero, and_assoc]

/-- The magic of an image header reads "GW". -/
def MagicRead (img : Nat → Byte) : Prop := img 0 = 0x47#8 ∧ img 1 = 0x57#8

/-- The image length of the header agrees with its counts. -/
def LengthAgrees (img : Nat → Byte) : Prop := (u16At img 6).toNat = 16 + 16 * (imageSlots img + imageHops img)

/-- The image CRC of the header is that of the image. -/
def CrcAgrees (img : Nat → Byte) : Prop := imageCrc img (u16At img 6).toNat = u16At img 14

theorem validateImage_magic (h : ¬MagicRead img) : validateImage img = .error (1, 0) :=
  if_pos (not_and_or.mp h)

section
variable (hm : MagicRead img)
include hm

theorem validateImage_version (h : img 2 ≠ 1#8) : validateImage img = .error (2, 0) := by
  simp [validateImage, hm.1, hm.2, h]

variable (hv : img 2 = 1#8)
include hv

theorem validateImage_counts (h : countsInRange img = false) : validateImage img = .error (3, 0) := by
  simp [validateImage, hm.1, hm.2, hv, h]

variable (hc : countsInRange img = true)
include hc

theorem validateImage_length (h : ¬LengthAgrees img) : validateImage img = .error (4, 0) := by
  unfold LengthAgrees at h
  simp [validateImage, hm.1, hm.2, hv, hc, h]

variable (hl : LengthAgrees img)
include hl

theorem validateImage_crc (h : ¬CrcAgrees img) : validateImage img = .error (5, 0) := by
  rw [LengthAgrees] at hl
  rw [CrcAgrees, hl] at h
  simp [validateImage, hm.1, hm.2, hv, hc, hl, h]

theorem validateImage_records (h : CrcAgrees img) : validateImage img = parseRecords img := by
  rw [LengthAgrees] at hl
  rw [CrcAgrees, hl] at h
  simp [validateImage, hm.1, hm.2, hv, hc, hl, h]

end

/-! The event (R160, R161). -/

theorem getLsbD_one_shiftLeft (i n : Fin 48) : (1#48 <<< i.val).getLsbD n.val = decide (n = i) := by
  rw [Bool.eq_iff_iff, BitVec.getLsbD_shiftLeft, BitVec.getLsbD_one]
  simp only [Bool.and_eq_true, Bool.not_eq_true', decide_eq_true_eq, decide_eq_false_iff_not, Fin.ext_iff]
  omega

theorem slotUse_fold (slots : List (Fin 48)) (u : BitVec 48) (n : Fin 48) :
    (slots.foldl (fun u i => u ||| (1#48 <<< i.val)) u).getLsbD n.val = (u.getLsbD n.val || decide (n ∈ slots)) := by
  induction slots generalizing u with
  | nil => simp
  | cons i slots ih =>
    simp only [List.foldl_cons, ih, BitVec.getLsbD_or, getLsbD_one_shiftLeft, List.mem_cons, Bool.decide_or,
      Bool.or_assoc]

/-- A slot-use set has the bits of its slots (R136). -/
theorem slotUseOf_getLsbD (slots : List (Fin 48)) (n : Fin 48) :
    (slotUseOf slots).getLsbD n.val = decide (n ∈ slots) := by
  rw [slotUseOf, slotUse_fold, BitVec.getLsbD_zero, Bool.false_or]

theorem setDir_same (st : Store) (a : Fin 8) : st.setDir a (st.dir a) = st := by
  have hset : st.dirs.set a.val (st.dir a) a.isLt = st.dirs := Vector.set_getElem_self a.isLt
  rw [Store.setDir, hset]

variable {s : State} {a : Fin 8} {seq : Byte} {au sa : Bool} {c : Chan}

theorem exec_validation (h : s.store.op = some (.commit a seq au c sa none)) :
    exec .validation s = .next (s.validate a seq au c sa).finish := by
  show execValidation s = _
  simp only [execValidation, h]

theorem validate_ok {p : Program} (h : validateImage (s.store.areaByte a) = .ok p) :
    s.validate a seq au c sa = s.beginStore .committing a { s.store.dir a with marker := .committing }
      (.commit a seq au c sa (some (commitRecOf (s.store.areaByte a) p au c sa))) := by
  simp only [State.validate, h]

theorem validate_error {reason offset : Nat} (h : validateImage (s.store.areaByte a) = .error (reason, offset)) :
    s.validate a seq au c sa = { s with
      store := { s.store with op := none },
      reports := s.reports.make
        (.storeDone seq .commit a .imageInvalid (b8 reason) (BitVec.ofNat 16 offset)) } := by
  simp only [State.validate, h, State.endStore, setDir_same]
  rfl

end Sys2Proof.Machine

open Sys2Proof.Machine

/-- Settles O36: the event by the outcome of the tests, and the tests in their order, each reason at the first record
that it holds of. -/
theorem validationOutcomes : Obligations.ValidationOutcomes := by
  refine ⟨fun s a seq au c sa hop => ⟨fun p hp => ?_, fun reason offset he => ?_⟩, ?_⟩
  · refine ⟨commitRecOf (s.store.areaByte a) p au c sa, ?_, rfl, rfl, rfl, rfl, rfl, rfl, rfl,
      slotUseOf_getLsbD (p.slots.map Prod.fst)⟩
    rw [exec_validation hop, validate_ok hp]
    rfl
  · rw [exec_validation hop, validate_error he]
  · intro img slots hops magic counts sized summed slotAt hopAt again badTone slotGood undeclared badHop
    have hcounts : countsInRange img = true ↔ counts := countsInRange_iff img
    refine ⟨validateImage_magic, validateImage_version,
      fun hm hv hc => validateImage_counts hm hv (Bool.eq_false_iff.mpr (mt hcounts.mp hc)),
      fun hm hv hc => validateImage_length hm hv (hcounts.mpr hc),
      fun hm hv hc => validateImage_crc hm hv (hcounts.mpr hc), fun hm hv hc hl hu => ?_⟩
    rw [validateImage_records hm hv (hcounts.mpr hc) hl hu]
    refine ⟨fun i hi hprior => ⟨fun h => ?_, fun hlt h => ?_, fun hlt hnew h => ?_⟩, fun hgood =>
      ⟨fun j hj hprior => ⟨fun h => ?_, fun hdecl h => ?_⟩, fun hhops => ?_⟩⟩
    · exact parseRecords_slotFault hi hprior fun ts n _ => testSlots_index h _
    · exact parseRecords_slotFault hi hprior fun ts n hts =>
        testSlots_repeated (slotOf_some rfl) ((slotRepeated_iff (k := ⟨_, hlt⟩) hts hprior rfl).mp h)
    · exact parseRecords_slotFault hi hprior fun ts n hts =>
        testSlots_tone (slotOf_some rfl) (mt (slotRepeated_iff (k := ⟨_, hlt⟩) hts hprior rfl).mpr hnew) h
    · exact parseRecords_hopFault hgood hj hprior fun declared n hd => testHops_undeclared hd h
    · exact parseRecords_hopFault hgood hj hprior fun declared n hd => testHops_bad hd hdecl h
    · obtain ⟨p, hp, hts, hes⟩ := parseRecords_passes hgood hhops
      refine ⟨p, hp, read_length hts, read_length hes, fun i hi => ?_, fun j hj => ?_⟩
      · obtain ⟨q, hq, htone⟩ := read_getElem? hts hi
        obtain ⟨k, hk, hat⟩ := SlotPasses.tone (hgood i hi)
        obtain rfl := Option.some.inj (htone.symm.trans hat)
        exact ⟨k, _, hq, hk, rfl, rfl, rfl⟩
      · obtain ⟨q, hq, hentry⟩ := read_getElem? hes hj
        exact ⟨q, hq, hopEntryAt_fields hentry⟩

end

section
/-! The stored records read back as they were written (R136, Tables 7-16, 7-17). -/

open Sys2Proof

namespace Sys2Proof.Machine

variable {fields : List Byte} {i : Nat}

/-! A sealed record: its fields, its length and its check value. -/

/-- The fields of a record and the bytes left erased after them, up to byte 61. -/
def recordBody (fields : List Byte) : List Byte := fields ++ List.replicate (62 - fields.length) Config.erased

theorem recordBody_length (h : fields.length ≤ 62) : (recordBody fields).length = 62 := by
  simp only [recordBody, List.length_append, List.length_replicate]
  omega

theorem sealRecord_eq (h : fields.length ≤ 62) :
    sealRecord fields = recordBody fields ++ be16 (crc16 (recordBody fields)) := by
  rw [sealRecord, ← recordBody, List.take_of_length_le (recordBody_length h).le]

theorem sealRecord_length (h : fields.length ≤ 62) : (sealRecord fields).length = 64 := by
  rw [sealRecord_eq h, List.length_append, recordBody_length h]
  rfl

theorem byteAt_sealRecord (h : fields.length ≤ 62) (hi : i < fields.length) :
    byteAt (sealRecord fields) i = byteAt fields i := by
  rw [sealRecord_eq h, recordBody, List.append_assoc, byteAt, List.getD_append _ _ _ _ hi, byteAt]

/-- The record CRC of a sealed record is that of its bytes 0 to 61. -/
theorem sealRecord_crc (h : fields.length ≤ 62) :
    u16At (byteAt (sealRecord fields)) 62 = crc16 ((List.range 62).map (byteAt (sealRecord fields))) := by
  have hlen := recordBody_length h
  have hbody : (List.range 62).map (byteAt (sealRecord fields)) = recordBody fields :=
    List.ext_getElem (by simp [hlen]) fun i _ hi => by
      simp [sealRecord_eq h, byteAt, List.getElem?_append_left hi, List.getElem?_eq_getElem hi]
  have hcrc (x : Nat) : byteAt (sealRecord fields) (62 + x) = byteAt (be16 (crc16 (recordBody fields))) x := by
    rw [sealRecord_eq h, byteAt, List.getD_append_right _ _ _ _ (by omega), hlen, Nat.add_sub_cancel_left, byteAt]
  calc u16At (byteAt (sealRecord fields)) 62
      = u16At (byteAt (be16 (crc16 (recordBody fields)))) 0 := congrArg₂ (· ++ ·) (hcrc 0) (hcrc 1)
    _ = crc16 (recordBody fields) := u16_of_be16 _
    _ = _ := by rw [hbody]

/-! The fields of a commit record. -/

theorem extractLsb'_nested {w m n a b : Nat} (u : BitVec w) (h : b + n ≤ m) :
    (u.extractLsb' a m).extractLsb' b n = u.extractLsb' (a + b) n := by
  refine BitVec.eq_of_getLsbD_eq fun i hi => ?_
  simp [hi, Nat.add_assoc, show b + i < m by omega]

/-- Byte `x` of a slot-use set holds its bits from `8 * x` on (Table 7-16). -/
theorem byteAt_slotUseBytes (u : BitVec 48) {x : Nat} (hx : x < 6) :
    byteAt (slotUseBytes u) x = u.extractLsb' (8 * x) 8 := by
  interval_cases x <;> simp [slotUseBytes, be48, be32, be16, byteAt, extractLsb'_nested]

/-- A byte before the bits below it. -/
theorem append_below (u : BitVec 48) (x : Nat) {v : BitVec (8 * x)} (h : v = u.extractLsb' 0 (8 * x)) :
    (u.extractLsb' (8 * x) 8 ++ v : BitVec (8 + 8 * x)) = u.extractLsb' 0 (8 + 8 * x) := by
  rw [h]
  exact BitVec.extractLsb'_append_extractLsb'_eq_extractLsb' (Nat.zero_add _).symm

/-- The bytes of a slot-use set, the last one first, join to the set again. -/
theorem slotUse_of_bytes (u : BitVec 48) : let p := byteAt (slotUseBytes u)
    (p 5 ++ (p 4 ++ (p 3 ++ (p 2 ++ (p 1 ++ p 0 : BitVec 16) : BitVec 24) : BitVec 32) : BitVec 40) : BitVec 48) =
      u := by
  simp only [byteAt_slotUseBytes, Nat.reduceLT]
  exact (append_below u 5 (append_below u 4 (append_below u 3 (append_below u 2 (append_below u 1 rfl))))).trans
    BitVec.extractLsb'_eq_self

theorem storedFlag_boolCode (b : Bool) : storedFlag (boolCode b) = b := by rw [storedFlag, yesNo_boolCode]; rfl

theorem chan_of_storedFlag (c : Chan) : (if storedFlag (chanCode c) then Chan.B else Chan.A) = c := by
  cases c <;> rfl

/-- The fields of a commit record in order (Table 7-16). -/
def commitFields (r : CommitRec) : List Byte :=
  [0x43#8, 0x4D#8] ++ be16 r.imageLength ++ be16 r.imageCrc ++ slotUseBytes r.slotUse ++
    [r.slotCount, r.hopCount, boolCode r.autostart, chanCode r.chan, boolCode r.startAfter]

theorem commitRecordBytes_eq (r : CommitRec) : commitRecordBytes r = sealRecord (commitFields r) := rfl

theorem commitFields_length (r : CommitRec) : (commitFields r).length = 17 := rfl

/-- A chunk with the fields of a commit record and its record CRC, beside an image whose counts agree, is intact. -/
theorem intactCommit_of_fields {chunk img : Nat → Byte} {r : CommitRec}
    (hfield : ∀ i, i < 17 → chunk i = byteAt (commitFields r) i)
    (hcrc : u16At chunk 62 = crc16 ((List.range 62).map chunk)) (hslots : r.slotCount = img 3)
    (hhops : r.hopCount = img 4) (huse : slotUseSize r.slotUse = r.slotCount.toNat) :
    intactCommit chunk img = some r := by
  have hword (i : Nat) (hi : i + 1 < 17) : u16At chunk i = u16At (byteAt (commitFields r)) i :=
    congrArg₂ (· ++ ·) (hfield i (by omega)) (hfield (i + 1) hi)
  have hset : (chunk 11 ++ (chunk 10 ++ (chunk 9 ++ (chunk 8 ++ (chunk 7 ++ chunk 6 : BitVec 16) : BitVec 24) :
      BitVec 32) : BitVec 40) : BitVec 48) = r.slotUse := by
    simp only [hfield, Nat.reduceLT]
    exact slotUse_of_bytes r.slotUse
  have hlength : u16At chunk 2 = r.imageLength := (hword 2 (by decide)).trans (u16_of_be16 _)
  have himage : u16At chunk 4 = r.imageCrc := (hword 4 (by decide)).trans (u16_of_be16 _)
  have h12 : chunk 12 = r.slotCount := hfield 12 (by decide)
  have h13 : chunk 13 = r.hopCount := hfield 13 (by decide)
  have h14 : chunk 14 = boolCode r.autostart := hfield 14 (by decide)
  have h15 : chunk 15 = chanCode r.chan := hfield 15 (by decide)
  have h16 : chunk 16 = boolCode r.startAfter := hfield 16 (by decide)
  unfold intactCommit
  simp only [hset, h12, h13]
  rw [if_pos ⟨hfield 0 (by decide), hfield 1 (by decide), hcrc, hslots, hhops, huse⟩, hlength, himage, h14, h15, h16,
    storedFlag_boolCode, storedFlag_boolCode, chan_of_storedFlag]

/-- The fields of a revoke record in order (Table 7-17). -/
def revokeFields (crc : BitVec 16) : List Byte := [0x52#8, 0x56#8] ++ be16 crc

theorem revokeRecordBytes_eq (crc : BitVec 16) : revokeRecordBytes crc = sealRecord (revokeFields crc) := rfl

theorem revokeFields_length (crc : BitVec 16) : (revokeFields crc).length = 4 := rfl

theorem intactRevoke_of_fields {chunk : Nat → Byte} {crc : BitVec 16}
    (hfield : ∀ i, i < 4 → chunk i = byteAt (revokeFields crc) i)
    (hcrc : u16At chunk 62 = crc16 ((List.range 62).map chunk)) (other : BitVec 16) :
    intactRevoke chunk other = decide (crc = other) := by
  have himage : u16At chunk 2 = crc :=
    (congrArg₂ (· ++ ·) (hfield 2 (by decide)) (hfield 3 (by decide))).trans (u16_of_be16 crc)
  have h0 : chunk 0 = 0x52#8 := hfield 0 (by decide)
  have h1 : chunk 1 = 0x56#8 := hfield 1 (by decide)
  simp only [intactRevoke, h0, h1, himage, hcrc, true_and]

end Sys2Proof.Machine

open Sys2Proof.Machine

/-- Settles O37: each field stands where it is read, and the record CRC is that of the bytes before it. -/
theorem recordsReadBack : Obligations.RecordsReadBack := by
  refine ⟨fun r img hslots hhops huse => ?_, fun crc other => ?_⟩
  · have hlen : (commitFields r).length ≤ 62 := by rw [commitFields_length]; decide
    rw [commitRecordBytes_eq]
    exact ⟨sealRecord_length hlen, intactCommit_of_fields (fun i hi => byteAt_sealRecord hlen hi) (sealRecord_crc hlen)
      hslots hhops huse⟩
  · have hlen : (revokeFields crc).length ≤ 62 := by rw [revokeFields_length]; decide
    rw [revokeRecordBytes_eq]
    exact ⟨sealRecord_length hlen, intactRevoke_of_fields (fun i hi => byteAt_sealRecord hlen hi) (sealRecord_crc hlen)
      other⟩

end

section
/-! What the report block makes of a report by its class (R137, R139 to R141, R144; Table 8-1), as its obligations state
it. -/

open Sys2Proof

namespace Sys2Proof.Machine

variable {b : ReportBlock} {r : ReportBody} {q : Report} {before after : List Report}

/-! The note of the period. -/

/-- Only a report that joins the tail moves the note of the period. -/
theorem note_of_length {b' : ReportBlock} (h : b'.queue.length = b.queue.length) : b'.note b r = b' := by
  rw [note_eq, h, Nat.sub_self, ite_self, Nat.add_zero]

theorem hopBegin_class (h : reportIndex r = 1) : reportClass r = .keep := by
  cases r with
  | hopBegin => rfl
  | _ => cases h

/-! The waiting report of a kind and key. -/

/-- The first report of the kind and key stands after the others of the queue before it. -/
theorem updateFirst_at (f : Report → Report) (hq : sameKey q.body r = true)
    (hb : ∀ x ∈ before, sameKey x.body r = false) :
    updateFirst r f (before ++ q :: after) = before ++ f q :: after := by
  induction before with
  | nil => simp [updateFirst, hq]
  | cons x before ih =>
    obtain ⟨hx, hrest⟩ := List.forall_mem_cons.mp hb
    simp [updateFirst, hx, ih hrest]

theorem waits_at (hs : b.queue = before ++ q :: after) (hq : sameKey q.body r = true) : b.waits r = true :=
  List.any_eq_true.mpr ⟨q, by simp [hs], hq⟩

theorem waits_none (h : ∀ x ∈ b.queue, sameKey x.body r = false) : b.waits r = false :=
  List.any_eq_false.mpr fun x hx => by simp [h x hx]

/-! A report made while the block is closed, or of a disabled kind (R137). -/

theorem make_discarded (h : b.isOpen = false ∨ (maskable r = true ∧ b.mask.getLsbD (reportIndex r) = false)) :
    b.make r = b := by
  have ha : b.accept r = b := by
    rcases h with hclosed | ⟨hm, hbit⟩
    · simp [ReportBlock.accept, hclosed]
    · simp [ReportBlock.accept, hm, hbit]
  rw [ReportBlock.make, ha, note_of_length rfl]

/-! A report that is taken. -/

/-- The block is open and the kind is enabled (R137). -/
structure ReportBlock.Takes (b : ReportBlock) (r : ReportBody) : Prop where
  isOpen : b.isOpen = true
  enabled : maskable r = true → b.mask.getLsbD (reportIndex r) = true

theorem ReportBlock.Takes.unmasked (h : b.Takes r) : (maskable r && !b.mask.getLsbD (reportIndex r)) = false := by
  simpa using h.enabled

theorem accept_keep (h : b.Takes r) (hc : reportClass r = .keep) : b.accept r = b.join r := by
  simp [ReportBlock.accept, h.isOpen, h.unmasked, hc]

theorem accept_merge (h : b.Takes r) (hc : reportClass r = .merge) : b.accept r =
    if b.waits r then { b with queue := updateFirst r Report.repeated b.queue } else b.join r := by
  simp [ReportBlock.accept, h.isOpen, h.unmasked, hc]

theorem accept_replace (h : b.Takes r) (hc : reportClass r = .replace) : b.accept r =
    if b.waits r then { b with queue := updateFirst r (fun q => { q with body := r }) b.queue } else b.join r := by
  simp [ReportBlock.accept, h.isOpen, h.unmasked, hc]

/-- A report of an ordinary class joins where none of its kind and key waits to take it up. -/
theorem accept_new (h : b.Takes r) (hc : reportClass r ≠ .completion) (hw : keyed r = true → b.waits r = false) :
    b.accept r = b.join r := by
  cases hr : reportClass r with
  | completion => exact absurd hr hc
  | keep => exact accept_keep h hr
  | merge => rw [accept_merge h hr, hw (by simp [keyed, hr]), if_neg Bool.false_ne_true]
  | replace => rw [accept_replace h hr, hw (by simp [keyed, hr]), if_neg Bool.false_ne_true]

/-- It joins the tail of a queue with room. -/
theorem make_joins (h : b.Takes r) (hc : reportClass r ≠ .completion) (hw : keyed r = true → b.waits r = false)
    (hroom : b.queue.length < 16) : b.make r = { b with
      queue := b.queue ++ [⟨r, 1⟩], begun := b.begun + if reportIndex r = 1 then 1 else 0 } := by
  have hjoin : b.join r = { b with queue := b.queue ++ [⟨r, 1⟩] } := if_pos hroom
  simp [ReportBlock.make, accept_new h hc hw, hjoin, note_eq]

/-- It is lost to a full queue. -/
theorem make_lost (h : b.Takes r) (hc : reportClass r ≠ .completion) (hw : keyed r = true → b.waits r = false)
    (hfull : 16 ≤ b.queue.length) : b.make r = { b with lost := min 65535 (b.lost + 1) } := by
  have hjoin : b.join r = b.lose := if_neg (Nat.not_lt.mpr hfull)
  rw [ReportBlock.make, accept_new h hc hw, hjoin, note_of_length (b := b) (b' := b.lose) rfl, ReportBlock.lose]

/-- A MERGE or REPLACE report with none of its kind and key in the queue joins it or is lost. -/
theorem make_keyed_new (h : b.Takes r) (hk : keyed r = true) (hnone : ∀ x ∈ b.queue, sameKey x.body r = false) :
    (b.queue.length < 16 → b.make r = { b with queue := b.queue ++ [⟨r, 1⟩] }) ∧
      (16 ≤ b.queue.length → b.make r = { b with lost := min 65535 (b.lost + 1) }) := by
  have hc : reportClass r ≠ .completion := fun hc => by simp [keyed, hc] at hk
  have hhop : reportIndex r ≠ 1 := fun hi => by simp [keyed, hopBegin_class hi] at hk
  have hw : keyed r = true → b.waits r = false := fun _ => waits_none hnone
  exact ⟨fun hroom => by rw [make_joins h hc hw hroom, if_neg hhop, Nat.add_zero], make_lost h hc hw⟩

/-- A change of the waiting report of the kind and key keeps its place. -/
theorem make_updated (f : Report → Report) (ha : b.accept r = { b with queue := updateFirst r f b.queue })
    (hs : b.queue = before ++ q :: after) (hq : sameKey q.body r = true)
    (hb : ∀ x ∈ before, sameKey x.body r = false) : b.make r = { b with queue := before ++ f q :: after } := by
  have hu : updateFirst r f b.queue = before ++ f q :: after := by rw [hs, updateFirst_at f hq hb]
  rw [ReportBlock.make, ha, hu, note_of_length (by simp [hs])]

/-- A waiting MERGE report takes the occurrence into its repeat count (R140). -/
theorem make_merged (h : b.Takes r) (hc : reportClass r = .merge) (hs : b.queue = before ++ q :: after)
    (hq : sameKey q.body r = true) (hb : ∀ x ∈ before, sameKey x.body r = false) :
    b.make r = { b with queue := before ++ { q with repeats := min 255 (q.repeats + 1) } :: after } :=
  make_updated Report.repeated ((accept_merge h hc).trans (if_pos (waits_at hs hq))) hs hq hb

/-- A waiting REPLACE report takes the fields (R141). -/
theorem make_replaced (h : b.Takes r) (hc : reportClass r = .replace) (hs : b.queue = before ++ q :: after)
    (hq : sameKey q.body r = true) (hb : ∀ x ∈ before, sameKey x.body r = false) :
    b.make r = { b with queue := before ++ { q with body := r } :: after } :=
  make_updated (fun q => { q with body := r }) ((accept_replace h hc).trans (if_pos (waits_at hs hq))) hs hq hb

/-! The classes and keys of Table 8-1. -/

theorem completion_iff (r : ReportBody) : reportClass r = .completion ↔
    (∃ seq kind a st detail offset, r = .storeDone seq kind a st detail offset) ∨
      (∃ seq c a st detail, r = .loadDone seq c a st detail) := by
  cases r <;> simp [reportClass]

theorem merge_iff (r : ReportBody) : reportClass r = .merge ↔
    (∃ c p, r = .underrun c p) ∨ (∃ c tag n, r = .lateStart c tag n) ∨ (∃ cause, r = .epochEvent cause) ∨
      (∃ c tag, r = .pairTimeout c tag) ∨ ∃ reason, r = .linkFault reason := by
  cases r <;> simp [reportClass]

theorem replace_iff (r : ReportBody) : reportClass r = .replace ↔
    (∃ c x, r = .channelState c x) ∨ ∃ c x h, r = .gateState c x h := by
  cases r <;> simp [reportClass]

theorem keep_class
    (h : (∃ cause areas, r = .powerUp cause areas) ∨ ∃ c slot tag count, r = .hopBegin c slot tag count) :
    reportClass r = .keep := by
  rcases h with ⟨_, _, rfl⟩ | ⟨_, _, _, _, rfl⟩ <;> rfl

theorem reportIndex_eq_of_sameKey {x y : ReportBody} (h : sameKey x y = true) : reportIndex x = reportIndex y := by
  simp only [sameKey, Bool.and_eq_true, beq_iff_eq] at h
  exact h.1

/-- Of two reports of one kind the keys decide. -/
theorem sameKey_of_index {x y : ReportBody} (h : reportIndex x = reportIndex y) :
    sameKey x y = (reportKey x == reportKey y) := by simp [sameKey, h]

theorem chanCode_beq (c d : Chan) : (chanCode c == chanCode d) = (c == d) := by cases c <;> cases d <;> rfl

theorem epochCauseCode_beq (x y : EpochCause) : (epochCauseCode x == epochCauseCode y) = (x == y) := by
  cases x <;> cases y <;> rfl

theorem faultReasonCode_beq (x y : FaultReason) : (faultReasonCode x == faultReasonCode y) = (x == y) := by
  cases x <;> cases y <;> rfl

theorem sameKey_epochEvent (x y : EpochCause) : sameKey (.epochEvent x) (.epochEvent y) = (x == y) :=
  (sameKey_of_index (x := .epochEvent x) (y := .epochEvent y) rfl).trans (epochCauseCode_beq x y)

theorem sameKey_linkFault (x y : FaultReason) : sameKey (.linkFault x) (.linkFault y) = (x == y) :=
  (sameKey_of_index (x := .linkFault x) (y := .linkFault y) rfl).trans (faultReasonCode_beq x y)

theorem sameKey_chan {x y : ReportBody} {c d : Chan} (h : reportIndex x = reportIndex y)
    (hx : reportKey x = chanCode c) (hy : reportKey y = chanCode d) : sameKey x y = (c == d) := by
  rw [sameKey_of_index h, hx, hy, chanCode_beq]

end Sys2Proof.Machine

open Sys2Proof.Machine

/-- Settles O59: where one of its key waits the queue changes at its place alone, else the report is a new one. -/
theorem mergeFolds : Obligations.MergeFolds := by
  refine ⟨fun b r hopen hen hc => ?_, merge_iff, fun _ _ => reportIndex_eq_of_sameKey,
    fun _ _ _ _ => sameKey_chan rfl rfl rfl, fun _ _ _ _ _ _ => sameKey_chan rfl rfl rfl,
    fun _ _ _ _ => sameKey_chan rfl rfl rfl, sameKey_epochEvent, sameKey_linkFault⟩
  have htakes : b.Takes r := ⟨hopen, hen⟩
  exact ⟨fun _ _ _ hs hq hb => make_merged htakes hc hs hq hb, make_keyed_new htakes (by simp [keyed, hc]),
    fun h => make_lawful h r⟩

/-- Settles O60: where one of its channel waits the queue changes at its place alone, else the report is a new one. -/
theorem replaceOverwrites : Obligations.ReplaceOverwrites := by
  refine ⟨fun b r hopen hen hc => ?_, replace_iff, fun _ _ => reportIndex_eq_of_sameKey,
    fun _ _ _ _ => sameKey_chan rfl rfl rfl, fun _ _ _ _ _ _ => sameKey_chan rfl rfl rfl⟩
  have htakes : b.Takes r := ⟨hopen, hen⟩
  exact ⟨fun _ _ _ hs hq hb => make_replaced htakes hc hs hq hb, make_keyed_new htakes (by simp [keyed, hc]),
    fun h => make_lawful h r⟩

/-- Settles O58: a report of the KEEP class has no key, so none that waits takes it up; the classes and
mask bits kind by kind. -/
theorem keepJoins : Obligations.KeepJoins := by
  intro b r
  refine ⟨make_discarded, fun hopen hen hkeep => ?_,
    fun hopen hdone => make_completion ((completion_iff r).mpr hdone) hopen, completion_iff r, keep_class, ?_⟩
  · have htakes : b.Takes r := ⟨hopen, hen⟩
    have hclass := keep_class hkeep
    have hc : reportClass r ≠ .completion := by simp [hclass]
    have hw : keyed r = true → b.waits r = false := fun hk => by simp [keyed, hclass] at hk
    exact ⟨make_joins htakes hc hw, make_lost htakes hc hw⟩
  · cases r <;> simp [maskable, reportIndex, Config.fullMask]

/-- Settles O31: the mask has a bit of no maskable kind, or none. -/
theorem reportConfigSets : Obligations.ReportConfigSets := by
  intro s r mask ht
  have hkinds : ~~~Config.fullMask = 0xFB01#16 := by decide
  refine ⟨fun hbad => ?_, fun hgood => ?_⟩
  all_goals refine congrArg Host.Outcome.next (request_answers ht ?_)
  · exact if_neg (hkinds ▸ hbad)
  · exact if_pos (hkinds ▸ hgood)

end

section
/-! What the scan makes of an area (R168), and the departure of POWER_UP (R148). -/

open Sys2Proof

namespace Sys2Proof.Machine

variable {st : Store} {a : Fin 8} {rec : CommitRec}

/-! An area's record by its marker and state. -/

theorem scanDir_marked (h : (st.dir a).marker ≠ .none) : st.scanDir a =
    { st.dir a with st := .damaged, marker := .none, commit := none, revoked := false } := if_pos h

theorem scanDir_unmarked (hm : (st.dir a).marker = .none) (hv : (st.dir a).st ≠ .valid) :
    st.scanDir a = st.dir a := by
  simp [Store.scanDir, hm, hv]

theorem scanDir_valid (hm : (st.dir a).marker = .none) (hv : (st.dir a).st = .valid) :
    st.scanDir a = st.scanValid a := by
  simp [Store.scanDir, hm, hv]

/-! The tests of a VALID area in their order. -/

theorem scanValid_noRecord (h : intactCommit (st.chunkByte a 62) (st.areaByte a) = none) :
    st.scanValid a = (st.dir a).damaged := by
  simp only [Store.scanValid, Config.commitChunk, h]

theorem chunkErased_iff (st : Store) (a : Fin 8) (chunk : Nat) :
    st.chunkErased a chunk = true ↔ ∀ i, i < 64 → st.chunkByte a chunk i = 0xFF#8 := by
  simp [Store.chunkErased, Config.chunkBytes, Config.erased]

/-- An erased chunk holds no revoke record. -/
theorem intactRevoke_erased {chunk : Nat → Byte} (h : chunk 0 = 0xFF#8) (crc : BitVec 16) :
    intactRevoke chunk crc = false := by
  simp [intactRevoke, h]

section

variable (h : intactCommit (st.chunkByte a 62) (st.areaByte a) = some rec)
include h

theorem scanValid_imageChanged (hi : imageCrc (st.areaByte a) rec.imageLength.toNat ≠ rec.imageCrc) :
    st.scanValid a = (st.dir a).damaged := by
  simp [Store.scanValid, Config.commitChunk, h, hi]

variable (hi : imageCrc (st.areaByte a) rec.imageLength.toNat = rec.imageCrc)
include hi

theorem scanValid_revoked (hr : intactRevoke (st.chunkByte a 63) rec.imageCrc = true) :
    st.scanValid a = { st.dir a with commit := some rec, revoked := true } := by
  simp [Store.scanValid, Config.commitChunk, Config.revokeChunk, h, hi, hr]

theorem scanValid_unrevoked (he : ∀ i, i < 64 → st.chunkByte a 63 i = 0xFF#8) :
    st.scanValid a = { st.dir a with commit := some rec, revoked := false } := by
  have hr := intactRevoke_erased (he 0 (by decide)) rec.imageCrc
  have herased := (chunkErased_iff st a 63).mpr he
  simp [Store.scanValid, Config.commitChunk, Config.revokeChunk, h, hi, hr, herased]

theorem scanValid_revokeSpoilt (hr : intactRevoke (st.chunkByte a 63) rec.imageCrc = false)
    (hw : ∃ i, i < 64 ∧ st.chunkByte a 63 i ≠ 0xFF#8) : st.scanValid a = (st.dir a).damaged := by
  obtain ⟨i, hlt, hbyte⟩ := hw
  have hdirty : ¬ st.chunkErased a 63 = true := fun he => hbyte ((chunkErased_iff st a 63).mp he i hlt)
  simp [Store.scanValid, Config.commitChunk, Config.revokeChunk, h, hi, hr, hdirty]

end

/-! The event, and the departure of POWER_UP. -/

theorem scanDone_dir (s : State) (cause : ResetCause) (a : Fin 8) :
    (s.scanDone cause).store.dir a = s.store.scanDir a :=
  (scan_dir s.store 8 a).trans (if_pos a.isLt)

/-- On a free line POWER_UP at the head departs, and the engine becomes IDLE (R122, R148). -/
theorem finish_powerUp {s : State} {q : Report} {rest : List Report} (h : s.LineFree) (hw : s.link.waiting = [])
    (hc : s.reports.completion = none) (hq : s.reports.queue = q :: rest) (hp : isPowerUp q = true) :
    s.finish.link.tx = some (.report (reportFrame s.reports.nextSeq q)) ∧
      s.finish.store = { s.store with engine := .idle } := by
  rw [finish_head h hw hc hq, sendHead_eq, State.drivePorts_link, State.drivePorts_store]
  simp only [hp, if_true]
  exact ⟨rfl, rfl⟩

end Sys2Proof.Machine

open Sys2Proof.Machine

/-- Settles O38: each area by its marker, its state and the tests of a VALID one, and POWER_UP at the head of an empty
queue. -/
theorem scanCompletes : Obligations.ScanCompletes := by
  intro s cause hop
  refine ⟨s.scanDone cause, exec_scanComplete hop, rfl, fun a hm => ?_, fun a hm hv => ?_, fun a hm hv => ?_,
    fun hq => ?_⟩
  · rw [scanDone_dir, scanDir_marked hm]
  · rw [scanDone_dir, scanDir_unmarked hm hv]
  · rw [scanDone_dir, scanDir_valid hm hv]
    exact ⟨scanValid_noRecord, fun rec hrec => ⟨scanValid_imageChanged hrec, fun himage =>
      ⟨scanValid_revoked hrec himage, scanValid_unrevoked hrec himage, scanValid_revokeSpoilt hrec himage⟩⟩⟩
  · have hreports : (s.scanDone cause).reports = { s.reports with
        isOpen := true, queue := [⟨.powerUp cause ((s.scanDone cause).store.dirs.toList.map Dir.st), 1⟩] } :=
      scanDone_reports s.reports hq cause _
    refine ⟨congrArg ReportBlock.queue hreports, fun htx hdue hw hc => ?_⟩
    obtain ⟨hsent, hidle⟩ := finish_powerUp (s := s.scanDone cause) ⟨htx, hdue⟩ hw
      ((congrArg ReportBlock.completion hreports).trans hc) (congrArg ReportBlock.queue hreports) rfl
    exact ⟨by rw [hsent, hreports], hidle⟩

end

section
/-! What each command leaves of the store's bytes (R150): all but six leave the memory itself, and those six keep its
canonical form. -/

open Sys2Proof

namespace Sys2Proof.Machine

variable {s t : State} {i : Instr} {op : State → State × List Byte}

/-! The effects before the arbiter's choice. -/

theorem mem_of_held (h : t.held = s.held) : t.store.mem = s.store.mem := congrArg Held.mem h

theorem EngineMoves.mem (h : EngineMoves s t) : t.store.mem = s.store.mem := congrArg Store.mem h.store

theorem finish_mem (s : State) : s.finish.store.mem = s.store.mem := mem_of_held (held_finish s)

theorem configure_mem (s : State) (c : Chan) (cfg : ChanConfig) : (s.configure c cfg).store.mem = s.store.mem :=
  mem_of_held ((held_changeHold _ c _).trans (held_setChan s c _))

theorem failLoad_mem (s : State) (k : LoadCtx) (st : Status) (detail : Byte) :
    (s.failLoad k st detail).store.mem = s.store.mem := congrArg Store.mem (failLoad_ended s k st detail).store

theorem cancelLoad_mem (s : State) : s.cancelLoad.store.mem = s.store.mem :=
  congrArg Store.mem (cancelLoad_cancelled s).store

theorem acceptLoad_mem (s : State) (k : LoadCtx) : (s.acceptLoad k).store.mem = s.store.mem := by
  rw [(acceptLoad_taken s k).store]

theorem applyLoad_mem (s : State) (k : LoadCtx) (p : Program) : (s.applyLoad k p).store.mem = s.store.mem := by
  have hi : (s.installProgram k.chan p).store.mem = s.store.mem :=
    congrArg Store.mem (installProgram_installed s k.chan p).outside.1
  cases hk : k.start with
  | false => rw [applyLoad_rest hk, failLoad_mem, hi]
  | true =>
    obtain ⟨-, hend, -⟩ := endLoad_kept (s.installProgram k.chan p)
    rw [applyLoad_start hk, State.report_store, ((EngineMoves.refl _).startChannel k.chan).mem, hend, hi]

theorem checkLoad_mem (s : State) (k : LoadCtx) (p : Program) : (s.checkLoad k p).store.mem = s.store.mem := by
  unfold State.checkLoad
  repeat' split
  · exact failLoad_mem s k _ _
  · exact failLoad_mem s k _ _
  · exact applyLoad_mem s k p

/-- A load reads the image and writes no byte (R173 to R178). -/
theorem completeLoad_mem (s : State) (k : LoadCtx) : (s.completeLoad k).store.mem = s.store.mem := by
  have hcorrupt (v : State) : (v.corruptLoad k).store.mem = v.store.mem := failLoad_mem _ k _ _
  unfold State.completeLoad
  dsimp only
  repeat' split
  · exact hcorrupt s
  · exact hcorrupt _
  · exact hcorrupt _
  · exact checkLoad_mem _ k _

theorem autoStep_mem (s : State) (a : AutoArea) : (s.autoStep a).store.mem = s.store.mem := by
  unfold State.autoStep
  dsimp only
  repeat' split
  · rfl
  · rfl
  · rfl
  · exact acceptLoad_mem _ _

theorem flush_mem (s : State) (c : Chan) : (s.flush c).store.mem = s.store.mem := by
  by_cases hst : (s.chan c).st = .loading
  · rw [flush_loading hst, cancelLoad_mem, ((EngineMoves.refl s).emptyQueue c).mem]
  · exact ((EngineMoves.refl s).flush c hst).mem

/-- Validation reads the image and writes no byte (R160, R161). -/
theorem validate_mem (s : State) (a : Fin 8) (seq : Byte) (au : Bool) (c : Chan) (sa : Bool) :
    (s.validate a seq au c sa).store.mem = s.store.mem := by
  unfold State.validate
  split <;> rfl

/-! The owners' operations (Table 6-4). -/

/-- An owner's operation that writes no byte of the store. -/
def KeepsBytes (op : State → State × List Byte) : Prop := ∀ s : State, (op s).1.store.mem = s.store.mem

theorem opResetScope_mem (scope : Byte) : KeepsBytes (opResetScope scope) := fun s => by
  obtain ⟨-, -, hst, -⟩ := resetChannels_kept s
  unfold opResetScope opResetFull
  repeat' split
  · exact congrArg Store.mem hst
  all_goals rfl

theorem opEpochMode_mem (mode : Byte) : KeepsBytes (opEpochMode mode) := fun s => by
  unfold opEpochMode
  repeat' split
  · exact mem_of_held (held_epochEvent s .request)
  all_goals rfl

theorem opHopAppend_mem (channel count : Byte) (entries : List Byte) :
    KeepsBytes (opHopAppend channel count entries) := fun s => by
  unfold opHopAppend appendParsed appendChecked
  dsimp only
  repeat' split
  exacts [rfl, rfl, rfl, rfl, rfl, rfl, rfl, rfl, ((EngineMoves.refl s).appendEntries _ _).mem]

theorem opHopFlush_mem (channel : Byte) : KeepsBytes (opHopFlush channel) := fun s => by
  unfold opHopFlush
  split
  · rfl
  · exact flush_mem s _

theorem opStart_mem (channel : Byte) : KeepsBytes (opStart channel) := fun s => by
  unfold opStart
  repeat' split
  · rfl
  · rfl
  · exact ((EngineMoves.refl s).startChannel _).mem
  · rfl

theorem opStopMode_mem (channel mode : Byte) : KeepsBytes (opStopMode channel mode) := fun s => by
  have hstop (now : Bool) : (opStop channel now s).1.store.mem = s.store.mem := by
    unfold opStop State.stopOrCancel
    dsimp only
    repeat' split
    · rfl
    · exact cancelLoad_mem s
    · exact ((EngineMoves.refl s).stopChannel _ now).mem
  unfold opStopMode
  repeat' split
  exacts [hstop _, hstop _, rfl]

theorem opChannelConfig_mem (channel policy cycle edge : Byte) (ramp : BitVec 16) (follow : Byte)
    (pairTimeout : BitVec 24) :
    KeepsBytes (opChannelConfig channel policy cycle edge ramp follow pairTimeout) := fun s => by
  unfold opChannelConfig
  repeat' split
  exacts [rfl, rfl, rfl, rfl, configure_mem s _ _]

theorem opGateAction_mem (channel action : Byte) : KeepsBytes (opGateAction channel action) := fun s => by
  have hgate (hold : Bool) : (opGate channel hold s).1.store.mem = s.store.mem := by
    unfold opGate
    split
    · rfl
    · exact mem_of_held (held_changeHold s _ _)
  unfold opGateAction
  repeat' split
  exacts [hgate _, hgate _, rfl]

theorem opLoad_mem (area channel start seq : Byte) : KeepsBytes (opLoad area channel start seq) := fun s => by
  unfold opLoad
  repeat' split
  exacts [rfl, rfl, rfl, acceptLoad_mem s _, rfl]

/-- No request writes a byte: those that change an area only begin an operation (R157). -/
theorem ownerOf_mem (k : Kind) (p : List Byte) (seq : Byte) (wp : Bool) : KeepsBytes (ownerOf k p seq wp) := by
  cases k with
  | reset => exact opResetScope_mem _
  | epoch => exact opEpochMode_mem _
  | hopAppend => exact opHopAppend_mem _ _ _
  | hopFlush => exact opHopFlush_mem _
  | start => exact opStart_mem _
  | stop => exact opStopMode_mem _ _
  | channelConfig => exact opChannelConfig_mem _ _ _ _ _ _ _
  | gate => exact opGateAction_mem _ _
  | load => exact opLoad_mem _ _ _ _
  | ping | identify | status | epochGet => exact fun _ => rfl
  | slotSet | slotClear | slotGet | queueGet | channelGet | reportConfig | storeErase | storeWrite | storeCommit
  | storeRevoke | storeRead | storeBlank | storeDigest | storeInfo =>
    intro s
    simp only [ownerOf, opSlotSet, opSlotClear, opSlotGet, opQueueGet, opChannelGet, opReportConfig, opStoreErase,
      opStoreWrite, opStoreCommit, opStoreRevoke, opStoreRead, opStoreBlank, opStoreDigest, opStoreInfo]
    repeat' split
    all_goals rfl

/-! An accepted frame, the receiver and the transmitter. -/

theorem acceptFrame_mem (ho : KeepsBytes op) (s : State) (kind seq : Byte) (payload : List Byte) :
    (s.acceptFrame kind seq payload op).store.mem = s.store.mem := by
  have hrefuse (v : State) : (v.refuseWindow kind seq).store.mem = v.store.mem := by
    unfold State.refuseWindow
    split <;> rfl
  unfold State.acceptFrame
  dsimp only
  repeat' split
  exacts [rfl, rfl, hrefuse s, ho _, hrefuse _, ho s, hrefuse s]

theorem frameRun_mem (kind seq : Byte) (payload : List Byte) (wp : Bool) :
    KeepsBytes (frameRun kind seq payload wp) := fun s => by
  unfold frameRun
  cases kindOf kind with
  | none => rfl
  | some k =>
    show (answer k seq payload (ownerOf k payload seq wp) s).1.store.mem = s.store.mem
    unfold answer
    split
    · exact ownerOf_mem k payload seq wp s
    · rfl

theorem frameEnds_mem (s : State) (pins : Pins) : (s.frameEnds pins).store.mem = s.store.mem :=
  congrArg Held.mem (held_frameEnds s pins)

theorem frame_mem (s : State) (pins : Pins) (kind seq : Byte) (payload : List Byte) (wp : Bool) :
    ((s.frameEnds pins).acceptBytes kind seq payload wp).store.mem = s.store.mem := by
  rw [acceptBytes_eq, finish_mem, acceptFrame_mem (frameRun_mem kind seq payload wp), frameEnds_mem]

theorem row_mem {r : Req} {k : Kind} {payload : List Byte} (h : requestOf i = some (r, k, payload))
    (hx : exec i s = .next t) : t.store.mem = s.store.mem := by
  cases hd : s.link.deaf with
  | true =>
    rw [exec_row_deaf h hd] at hx
    cases hx
    rfl
  | false =>
    rw [exec_row_bytes h hd] at hx
    cases hx
    exact frame_mem s _ _ _ _ _

theorem receiverFault_mem (s : State) (reason : FaultReason) : (s.receiverFault reason).store.mem = s.store.mem :=
  finish_mem _

theorem ite_mem {b : Prop} [Decidable b] {u : State} (ht : t.store.mem = s.store.mem)
    (hu : u.store.mem = s.store.mem) : (if b then t else u).store.mem = s.store.mem := by
  split
  · exact ht
  · exact hu

theorem takeByte_mem (s : State) (b : Byte) (pins : Pins) : (s.takeByte b pins).store.mem = s.store.mem := by
  unfold State.takeByte
  dsimp only
  split
  · exact ite_mem rfl rfl
  · exact ite_mem (receiverFault_mem s _) rfl
  · rfl
  · rfl
  · rfl
  · rfl
  · exact ite_mem (frame_mem s pins _ _ _ _) (receiverFault_mem s _)

theorem transmissionEnd_mem (s : State) : s.transmissionEnd.store.mem = s.store.mem := by
  unfold State.transmissionEnd
  split
  · rfl
  · exact finish_mem _
  · exact finish_mem _
  · exact finish_mem _

theorem advance_mem (s : State) (lines : Lines) : (s.advance lines).store.mem = s.store.mem :=
  congrArg Store.mem (State.drivePorts_store _)

/-! The commands. -/

/-- The commands that can change a byte of an area (R150). -/
def changesBytes : Instr → Bool
  | .eraseComplete | .writeComplete | .commitComplete | .revokeComplete | .coldReset .. | .retentionLoss .. => true
  | _ => false

/-- Every other command leaves the store's memory as it is. -/
theorem exec_mem (hi : changesBytes i = false) (hx : exec i s = .next t) : t.store.mem = s.store.mem := by
  cases i with
  | eraseComplete | writeComplete | commitComplete | revokeComplete | coldReset | retentionLoss => cases hi
  | unknownKind seq pins kind payload =>
    cases hx
    refine ite_mem rfl ((finish_mem _).trans ((acceptFrame_mem (fun _ => rfl) _ kind seq payload).trans ?_))
    exact frameEnds_mem s pins
  | lengthFault | checkFault | interbyteTimeout | rxBreak => cases hx; exact ite_mem rfl (receiverFault_mem s _)
  | byteReceived _ b pins => cases hx; exact ite_mem rfl (takeByte_mem s b pins)
  | transmissionEnd => cases hx; exact transmissionEnd_mem s
  | autostartStep =>
    cases hx
    split
    · exact ite_mem ((finish_mem _).trans (autoStep_mem s _)) rfl
    · rfl
  | fullReset straps stopped => cases hx; rw [fullReset_eq]; exact ite_mem rfl rfl
  | scanComplete =>
    cases hx
    split
    · exact finish_mem _
    · rfl
  | validation =>
    cases hx
    split
    · exact (finish_mem _).trans (validate_mem s _ _ _ _ _)
    · rfl
  | loadReadComplete stopped =>
    cases hx
    split
    · exact (finish_mem _).trans ((completeLoad_mem _ _).trans (mem_of_held (held_noteClock s stopped)))
    · rfl
  | dwellExpiry c => cases hx; exact mem_of_held (held_doExpiry s c)
  | pairTimerExpiry c => cases hx; exact mem_of_held (held_doPairTimer s c)
  | gateArrival c => cases hx; exact mem_of_held (held_doArrival s c)
  | triggerEdge c => cases hx; exact mem_of_held (held_doEdge s c)
  | timeArrival c => cases hx; exact mem_of_held (held_doTime s c)
  | syncEdge => cases hx; exact mem_of_held (held_doSyncEdge s)
  | wrap => cases hx; exact mem_of_held (held_doWrap s)
  | gateLineChange => cases hx; exact mem_of_held (held_doGateLine s)
  | samplePeriod lines => cases hx; exact (advance_mem _ lines).trans (mem_of_held (held_endPeriod s))
  | _ => exact row_mem rfl hx

/-! The canonical form. -/

theorem endStore_mem (s : State) (st : Store) (a : Fin 8) (d : Dir) (r : ReportBody) :
    (s.endStore st a d r).store.mem = st.mem := rfl

theorem eraseDone_mem (s : State) (a : Fin 8) (seq : Byte) :
    (s.eraseDone a seq).store.mem = (s.store.eraseChunks a 64).mem := endStore_mem s _ a _ _

theorem writeDone_mem (s : State) (a : Fin 8) (seq : Byte) (chunk : Nat) (data : List Byte) :
    (s.writeDone a seq chunk data).store.mem = (s.store.program a chunk data).mem := endStore_mem s _ a _ _

theorem commitDone_mem (s : State) (a : Fin 8) (seq : Byte) (r : CommitRec) :
    (s.commitDone a seq r).store.mem = (s.store.program a 62 (commitRecordBytes r)).mem := endStore_mem s _ a _ _

theorem revokeDone_mem (s : State) (a : Fin 8) (seq : Byte) :
    (s.revokeDone a seq).store.mem = (s.store.program a 63 (s.store.revokeBytes a)).mem := endStore_mem s _ a _ _

theorem program_wf {st : Store} (h : Memory.wf st.mem = true) (a : Fin 8) (chunk : Nat) (bs : List Byte) :
    Memory.wf (st.program a chunk bs).mem = true := memWrites_wf _ bs h

theorem eraseChunks_wf {st : Store} (h : Memory.wf st.mem = true) (a : Fin 8) (n : Nat) :
    Memory.wf (st.eraseChunks a n).mem = true := memErase_wf _ _ h

/-- An operation cut short leaves the canonical form, however far it had gone (R150, R167). -/
theorem interrupted_wf {st : Store} (h : Memory.wf st.mem = true) (n : Nat) :
    Memory.wf (st.interrupted n).mem = true := by
  unfold Store.interrupted
  split
  · exact eraseChunks_wf h _ _
  · exact program_wf h _ _ _
  · exact program_wf h _ _ _
  · exact h
  · exact program_wf h _ _ _
  · exact h
  · exact h

/-- The memory after the bytes of an area at these offsets have taken these values in order (R150). -/
def lostBytes (area : Nat) (changes : List (Nat × Byte)) (m : List Host.Cell) : List Host.Cell :=
  changes.foldl (fun m p => memWrite m (Config.areaBytes * area + p.1) p.2) m

theorem lose_mem (s : State) (area : Nat) (changes : List (Nat × Byte)) :
    (s.lose area changes).store.mem = lostBytes area changes s.store.mem := rfl

theorem lostBytes_wf {m : List Host.Cell} (area : Nat) (changes : List (Nat × Byte)) (h : Memory.wf m = true) :
    Memory.wf (lostBytes area changes m) = true := by
  induction changes generalizing m with
  | nil => exact h
  | cons p rest ih => exact ih (memWrite_wf _ _ h)

/-- A loss of retention answers a next state only where the bytes exist (R150). -/
theorem retentionLoss_next {area : Nat} {changes : List (Nat × Byte)}
    (hx : exec (.retentionLoss area changes) s = .next t) : t = s.lose area changes := by
  have hx' : (if area < 8 ∧ changes.all offsetExists = true then .next (s.lose area changes)
    else .fault .noSuchByte : Result) = .next t := hx
  split at hx'
  · cases hx'; rfl
  · cases hx'

/-- Every command keeps the canonical form. -/
theorem exec_wf (h : Memory.wf s.store.mem = true) (hx : exec i s = .next t) : Memory.wf t.store.mem = true := by
  cases hi : changesBytes i with
  | false => rw [exec_mem hi hx]; exact h
  | true =>
    cases i with
    | eraseComplete =>
      cases hx
      split
      · rw [finish_mem, eraseDone_mem]; exact eraseChunks_wf h _ _
      · exact h
    | writeComplete =>
      cases hx
      split
      · rw [finish_mem, writeDone_mem]; exact program_wf h _ _ _
      · exact h
    | commitComplete =>
      cases hx
      split
      · rw [finish_mem, commitDone_mem]; exact program_wf h _ _ _
      · exact h
    | revokeComplete =>
      cases hx
      split
      · rw [finish_mem, revokeDone_mem]; exact program_wf h _ _ _
      · exact h
    | coldReset straps span => cases hx; exact interrupted_wf h span.progress
    | retentionLoss area changes => rw [retentionLoss_next hx, lose_mem]; exact lostBytes_wf area changes h
    | _ => cases hi

end Sys2Proof.Machine

open Sys2Proof.Machine

/-- Settles O4: all but six commands leave the memory as it is, and those six write or erase bytes of it. -/
theorem memoryFormKept : Obligations.MemoryFormKept := by
  intro s t h hs
  unfold step at hs
  split at hs
  · cases hs; exact h
  · rename_i c rest _
    exact exec_wf (s := { s with pending := rest }) h hs

/-- Settles O9: a command outside the list leaves the memory itself. -/
theorem storedByteChangers : Obligations.StoredByteChangers := by
  intro i s t hx hne
  have hbytes : changesBytes i = true := by
    by_contra hi
    have hmem := exec_mem (Bool.eq_false_iff.mpr hi) hx
    exact hne fun a => by rw [hmem]
  cases i with
  | eraseComplete | writeComplete | commitComplete | revokeComplete | coldReset | retentionLoss => trivial
  | _ => cases hbytes

end

section
/-! The completions of the store's operations (R153, R156) and a loss of retention (R150): every byte they leave, and
the directory. -/

open Sys2Proof

namespace Sys2Proof.Machine

variable {s : State} {st : Store} {a : Fin 8} {seq : Byte} {m : List Host.Cell}

/-! The bytes. -/

theorem program_reads (h : Memory.wf st.mem = true) (a : Fin 8) (chunk : Nat) (bs : List Byte) (x : Nat) :
    memRead (st.program a chunk bs).mem x =
      if 4096 * a.val + 64 * chunk ≤ x ∧ x < 4096 * a.val + 64 * chunk + bs.length
      then bs.getD (x - (4096 * a.val + 64 * chunk)) 0xFF#8 else memRead st.mem x := memRead_memWrites h _ _ bs

/-- The erase of all 64 chunks. -/
theorem eraseChunks_reads (st : Store) (a : Fin 8) (x : Nat) : memRead (st.eraseChunks a 64).mem x =
    if 4096 * a.val ≤ x ∧ x < 4096 * a.val + 4096 then 0xFF#8 else memRead st.mem x :=
  memRead_memErase st.mem (4096 * a.val) 4096 x

theorem commitRecordBytes_length (r : CommitRec) : (commitRecordBytes r).length = 64 :=
  sealRecord_length (fields := commitFields r) (by simp [commitFields_length])

theorem revokeRecordBytes_length (crc : BitVec 16) : (revokeRecordBytes crc).length = 64 :=
  sealRecord_length (fields := revokeFields crc) (by simp [revokeFields_length])

/-- A byte named by a loss of retention reads the last value it is given (R150). -/
theorem memRead_lostBytes (h : Memory.wf m = true) (area : Nat) (changes : List (Nat × Byte)) (x : Nat) :
    memRead (lostBytes area changes m) x =
      ((changes.reverse.find? fun p => 4096 * area + p.1 == x).map Prod.snd).getD (memRead m x) := by
  induction changes using List.reverseRecOn with
  | nil => rfl
  | append_singleton before p ih =>
    have hlast : lostBytes area (before ++ [p]) m = memWrite (lostBytes area before m) (4096 * area + p.1) p.2 := by
      simp [lostBytes, Config.areaBytes]
    rw [hlast, memRead_memWrite (lostBytes_wf area before h), ih, List.reverse_append, List.reverse_singleton,
      List.singleton_append]
    by_cases hx : x = 4096 * area + p.1
    · rw [if_pos hx, List.find?_cons_of_pos (by simp [hx])]
      rfl
    · rw [if_neg hx, List.find?_cons_of_neg (by simpa using Ne.symm hx)]

/-! The directory. -/

theorem mem_chunkInsert (cs : List Nat) (c n : Nat) : n ∈ chunkInsert cs c ↔ n = c ∨ n ∈ cs := by
  induction cs with
  | nil => simp [chunkInsert]
  | cons k rest ih =>
    unfold chunkInsert
    split
    · simp
    · split
      · rename_i hk; subst hk; simp
      · rw [List.mem_cons, ih, List.mem_cons, or_left_comm]

/-- A revoke record carries the image CRC of the directory's record (R136; assumption log 42). -/
theorem revokeBytes_some {rec : CommitRec} (h : (st.dir a).commit = some rec) :
    st.revokeBytes a = revokeRecordBytes rec.imageCrc := by
  simp only [Store.revokeBytes, h, Option.map_some, Option.getD_some]

theorem program_engine (st : Store) (a : Fin 8) (chunk : Nat) (bs : List Byte) :
    (st.program a chunk bs).engine = st.engine := rfl

theorem endStore_dirs (hd : st.dirs = s.store.dirs) (a : Fin 8) (d : Dir) (r : ReportBody) :
    (s.endStore st a d r).store.dirs = s.store.dirs.set a.val d a.isLt := by
  rw [← hd]
  rfl

/-- A completion changes the bytes, the directory, the operation in progress and the reports (R156). -/
theorem endStore_frame (he : st.engine = s.store.engine) (a : Fin 8) (d : Dir) (r : ReportBody) :
    s.endStore st a d r = { s with
      store := { s.store with
        mem := (s.endStore st a d r).store.mem, dirs := (s.endStore st a d r).store.dirs, op := none }
      reports := s.reports.make r } := by
  simp only [State.endStore, State.report, Store.setDir, he]

/-! The events by the operation in progress; without it a completion changes nothing (assumption log 7). -/

theorem exec_eraseComplete (h : s.store.op = some (.erase a seq)) :
    exec .eraseComplete s = .next (s.eraseDone a seq).finish := by
  show Host.Outcome.next _ = _
  rw [h]

theorem exec_writeComplete {chunk : Nat} {data : List Byte} (h : s.store.op = some (.write a seq chunk data)) :
    exec .writeComplete s = .next (s.writeDone a seq chunk data).finish := by
  show Host.Outcome.next _ = _
  rw [h]

theorem exec_commitComplete {au sa : Bool} {c : Chan} {rec : CommitRec}
    (h : s.store.op = some (.commit a seq au c sa (some rec))) :
    exec .commitComplete s = .next (s.commitDone a seq rec).finish := by
  show Host.Outcome.next _ = _
  rw [h]

theorem exec_revokeComplete (h : s.store.op = some (.revoke a seq)) :
    exec .revokeComplete s = .next (s.revokeDone a seq).finish := by
  show Host.Outcome.next _ = _
  rw [h]

theorem exec_eraseComplete_idle (h : ∀ b q, s.store.op ≠ some (.erase b q)) : exec .eraseComplete s = .next s := by
  show execEraseComplete s = _
  unfold execEraseComplete
  split
  · rename_i hop; exact absurd hop (h _ _)
  · rfl

theorem exec_writeComplete_idle (h : ∀ b q n d, s.store.op ≠ some (.write b q n d)) :
    exec .writeComplete s = .next s := by
  show execWriteComplete s = _
  unfold execWriteComplete
  split
  · rename_i hop; exact absurd hop (h _ _ _ _)
  · rfl

theorem exec_commitComplete_idle (h : ∀ b q au c sa rec, s.store.op ≠ some (.commit b q au c sa (some rec))) :
    exec .commitComplete s = .next s := by
  show execCommitComplete s = _
  unfold execCommitComplete
  split
  · rename_i hop; exact absurd hop (h _ _ _ _ _ _)
  · rfl

theorem exec_revokeComplete_idle (h : ∀ b q, s.store.op ≠ some (.revoke b q)) : exec .revokeComplete s = .next s := by
  show execRevokeComplete s = _
  unfold execRevokeComplete
  split
  · rename_i hop; exact absurd hop (h _ _)
  · rfl

theorem exec_validation_idle (h : ∀ b q au c sa, s.store.op ≠ some (.commit b q au c sa none)) :
    exec .validation s = .next s := by
  show execValidation s = _
  unfold execValidation
  split
  · rename_i hop; exact absurd hop (h _ _ _ _ _)
  · rfl

theorem exec_scanComplete_idle (h : ∀ cause, s.store.op ≠ some (.scan cause)) : exec .scanComplete s = .next s := by
  show execScanComplete s = _
  unfold execScanComplete
  split
  · rename_i hop; exact absurd hop (h _)
  · rfl

theorem exec_retentionLoss {area : Nat} {changes : List (Nat × Byte)} (ha : area < 8)
    (hc : ∀ p ∈ changes, p.1 < 4096) : exec (.retentionLoss area changes) s = .next (s.lose area changes) :=
  if_pos ⟨ha, List.all_eq_true.mpr fun p hp => decide_eq_true (hc p hp)⟩

theorem exec_retentionLoss_fault {area : Nat} {changes : List (Nat × Byte)}
    (h : 8 ≤ area ∨ ∃ p ∈ changes, 4096 ≤ p.1) : exec (.retentionLoss area changes) s = .fault .noSuchByte := by
  refine if_neg fun ⟨ha, hc⟩ => ?_
  rcases h with h | ⟨p, hp, h⟩
  · omega
  · have hlt : p.1 < 4096 := of_decide_eq_true (List.all_eq_true.mp hc p hp)
    omega

end Sys2Proof.Machine

open Sys2Proof.Machine

/-- Settles O35: what each operation's completion programs or erases, and its record of the directory. -/
theorem storeCompletions : Obligations.StoreCompletions := by
  intro s a seq hwf ended
  refine ⟨fun hop => ?_, fun chunk data hop => ?_, fun au c sa rec hop => ?_, fun rec hop hrec => ?_,
    exec_eraseComplete_idle, exec_writeComplete_idle, exec_commitComplete_idle, exec_revokeComplete_idle,
    exec_validation_idle, exec_scanComplete_idle⟩
  · refine ⟨_, exec_eraseComplete hop, fun x => ?_, rfl, endStore_frame (st := s.store.eraseChunks a 64) rfl a _ _⟩
    rw [eraseDone_mem, eraseChunks_reads]
  · have hdir (d : Fin 8) : (s.writeDone a seq chunk data).store.dir d = _ := dir_setDir _ a d _
    refine ⟨_, exec_writeComplete hop, fun x => ?_, fun d hd => (hdir d).trans (if_neg hd), ?_, fun n => ?_,
      endStore_frame (program_engine s.store a chunk data) a _ _⟩
    · rw [writeDone_mem, program_reads hwf]
    · rw [hdir a, if_pos rfl]
    · rw [hdir a, if_pos rfl]; exact mem_chunkInsert _ chunk n
  · refine ⟨_, exec_commitComplete hop, fun x => ?_,
      endStore_dirs (program_dirs s.store a 62 (commitRecordBytes rec)) a _ _,
      endStore_frame (program_engine s.store a 62 (commitRecordBytes rec)) a _ _⟩
    rw [commitDone_mem, program_reads hwf, commitRecordBytes_length]
  · refine ⟨_, exec_revokeComplete hop, fun x => ?_,
      endStore_dirs (program_dirs s.store a 63 (s.store.revokeBytes a)) a _ _,
      endStore_frame (program_engine s.store a 63 (s.store.revokeBytes a)) a _ _⟩
    rw [revokeDone_mem, revokeBytes_some hrec, program_reads hwf, revokeRecordBytes_length]

/-- Settles O39: the last change of a byte is the first of the changes reversed. -/
theorem retentionLossChanges : Obligations.RetentionLossChanges := by
  intro s area changes hwf
  refine ⟨fun ha hc => ⟨_, exec_retentionLoss ha hc, rfl, fun x => ?_⟩, exec_retentionLoss_fault⟩
  rw [lose_mem, memRead_lostBytes hwf]
  cases changes.reverse.find? fun p => 4096 * area + p.1 == x <;> rfl

end

section
/-! What the requests of the store answer (R153 to R166, Table 9-6), each check in its order. -/

open Sys2Proof

namespace Sys2Proof.Machine

variable {s : State} {area : Byte} {a : Fin 8} {seq : Byte} {wp : Bool}

/-- A request row that is taken answers what its owner's operation gives. -/
theorem request_next {t : State} {r : Req} {k : Kind} {payload body : List Byte} {op : State → State × List Byte}
    (ht : s.takes r k payload) (ho : op (s.frameEnds r.pins) = (t, body)) :
    (.next (s.request r k payload op) : Result) = .next (t.replied r k payload body) :=
  congrArg _ (request_answers ht ho)

/-! The fields of a store request. -/

theorem areaOf_none (h : 8 ≤ area.toNat) : areaOf area = none := dif_neg (by omega)

theorem areaOf_some (h : a.val = area.toNat) : areaOf area = some a := by
  simp [areaOf, ← h]

theorem chanOf_none {b : Byte} (h : 2 ≤ b.toNat) : chanOf b = none := by
  unfold chanOf
  rw [if_neg, if_neg] <;> rintro rfl <;> simp at h

theorem chanOf_chanCode (c : Chan) : chanOf (chanCode c) = some c := by cases c <;> rfl

/-! A field out of range is refused before everything else (R133, Table 9-6). -/

theorem opStoreErase_bad (h : 8 ≤ area.toNat) : opStoreErase area seq wp s = refuse .badValue s := by
  rw [opStoreErase, areaOf_none h]

theorem opStoreWrite_bad {chunk : Byte} (h : 8 ≤ area.toNat ∨ 62 ≤ chunk.toNat) (data : List Byte) :
    opStoreWrite area chunk data seq wp s = refuse .badValue s := by
  unfold opStoreWrite
  split
  · rfl
  · rename_i ha
    exact if_pos (h.resolve_left fun h => by simp [areaOf_none h] at ha)

theorem opStoreCommit_bad {au c sa : Byte} (h : 8 ≤ area.toNat ∨ 2 ≤ au.toNat ∨ 2 ≤ c.toNat ∨ 2 ≤ sa.toNat) :
    opStoreCommit area au c sa seq wp s = refuse .badValue s := by
  unfold opStoreCommit
  split
  · rename_i ha hau hc hsa
    rcases h with h | h | h | h
    · simp [areaOf_none h] at ha
    · simp [yesNo_none h] at hau
    · simp [chanOf_none h] at hc
    · simp [yesNo_none h] at hsa
  · rfl

theorem opStoreRevoke_bad (h : 8 ≤ area.toNat) : opStoreRevoke area seq wp s = refuse .badValue s := by
  rw [opStoreRevoke, areaOf_none h]

theorem opStoreRead_bad {offset : BitVec 16} {n : Byte}
    (h : 8 ≤ area.toNat ∨ n.toNat = 0 ∨ 200 < n.toNat ∨ 4096 < offset.toNat + n.toNat) :
    opStoreRead area offset n s = refuse .badValue s := by
  unfold opStoreRead
  split
  · rfl
  · rename_i ha
    exact if_pos (h.resolve_left fun h => by simp [areaOf_none h] at ha)

theorem opStoreBlank_bad (h : 8 ≤ area.toNat) : opStoreBlank area s = refuse .badValue s := by
  rw [opStoreBlank, areaOf_none h]

theorem opStoreDigest_bad {first last : Byte}
    (h : 8 ≤ area.toNat ∨ 63 < first.toNat ∨ 63 < last.toNat ∨ last.toNat < first.toNat) :
    opStoreDigest area first last s = refuse .badValue s := by
  unfold opStoreDigest
  split
  · rfl
  · rename_i ha
    exact if_pos (h.resolve_left fun h => by simp [areaOf_none h] at ha)

/-! The requests with their fields in range: the checks that are left, in their order (R155, Table 9-6). -/

section

variable (ha : a.val = area.toNat)
include ha

theorem opStoreErase_area : opStoreErase area seq wp s =
    if s.store.engine ≠ .idle then refuse .storeBusy s
    else if 20000 ≤ (s.store.dir a).eraseCount then
      (s, 0x34#8 :: be16 (BitVec.ofNat 16 (s.store.dir a).eraseCount))
    else if wp then refuse .storeProtected s
    else answerStarted (be16 (BitVec.ofNat 16 ((s.store.dir a).eraseCount + 1)))
      (s.beginStore .erasing a { s.store.dir a with
        eraseCount := (s.store.dir a).eraseCount + 1, marker := .erasing } (.erase a seq)) := by
  rw [opStoreErase, areaOf_some ha]
  rfl

theorem opStoreWrite_area {chunk : Byte} (hc : chunk.toNat ≤ 61) (data : List Byte) :
    opStoreWrite area chunk data seq wp s =
      if s.store.engine ≠ .idle then refuse .storeBusy s
      else if (s.store.dir a).st ≠ .blank ∧ (s.store.dir a).st ≠ .opened then refuse .areaState s
      else if chunk.toNat ∈ (s.store.dir a).written then refuse .notBlank s
      else if wp then refuse .storeProtected s
      else answerStarted [] (s.beginStore .writing a { s.store.dir a with marker := .writing }
        (.write a seq chunk.toNat data)) := by
  simp [opStoreWrite, areaOf_some ha, Nat.not_lt.mpr hc]

theorem opStoreCommit_area (au : Bool) (c : Chan) (sa : Bool) :
    opStoreCommit area (boolCode au) (chanCode c) (boolCode sa) seq wp s =
      if s.store.engine ≠ .idle then refuse .storeBusy s
      else if (s.store.dir a).st ≠ .opened then refuse .areaState s
      else if wp then refuse .storeProtected s
      else answerStarted []
        (s.beginStore .committing a (s.store.dir a) (.commit a seq au c sa none)) := by
  simp only [opStoreCommit, areaOf_some ha, yesNo_boolCode, chanOf_chanCode]

theorem opStoreRevoke_area : opStoreRevoke area seq wp s =
    if s.store.engine ≠ .idle then refuse .storeBusy s
    else if (s.store.dir a).autostartRec = none then refuse .areaState s
    else if wp then refuse .storeProtected s
    else answerStarted []
      (s.beginStore .revoking a { s.store.dir a with marker := .revoking } (.revoke a seq)) := by
  simp only [opStoreRevoke, areaOf_some ha, Option.isNone_iff_eq_none]

theorem opStoreRead_area {offset : BitVec 16} {n : Byte} (h1 : 1 ≤ n.toNat) (h2 : n.toNat ≤ 200)
    (h3 : offset.toNat + n.toNat ≤ 4096) : opStoreRead area offset n s =
      if s.store.engine ≠ .idle then refuse .storeBusy s
      else answerOk (be16 offset ++ n :: s.store.areaSlice a offset.toNat n.toNat) s := by
  have hin : ¬(n.toNat = 0 ∨ 200 < n.toNat ∨ Config.areaBytes < offset.toNat + n.toNat) := by
    have hbytes : Config.areaBytes = 4096 := rfl
    omega
  rw [opStoreRead, areaOf_some ha]
  dsimp only
  rw [if_neg hin]

theorem opStoreBlank_area : opStoreBlank area s =
    if s.store.engine ≠ .idle then refuse .storeBusy s
    else answerOk ((s.store.firstUsed a).elim [0#8, 0#8, 0#8] fun i => 1#8 :: be16 (BitVec.ofNat 16 i)) s := by
  have hzero : be16 0#16 = [0#8, 0#8] := by decide
  cases hu : s.store.firstUsed a <;> simp only [opStoreBlank, areaOf_some ha, hu, hzero, Option.elim]

theorem opStoreDigest_area {first last : Byte} (h1 : first.toNat ≤ last.toNat) (h2 : last.toNat ≤ 63) :
    opStoreDigest area first last s =
      if s.store.engine ≠ .idle then refuse .storeBusy s
      else answerOk (be16 (crc16 (s.store.areaSlice a (64 * first.toNat)
        (64 * (last.toNat - first.toNat + 1))))) s := by
  have hin : ¬(63 < first.toNat ∨ 63 < last.toNat ∨ last.toNat < first.toNat) := by omega
  rw [opStoreDigest, areaOf_some ha]
  exact if_neg hin

theorem opLoad_busy (hb : s.store.engine ≠ .idle) (c : Chan) (st : Bool) :
    opLoad area (chanCode c) (boolCode st) seq s = refuse .storeBusy s := by
  simp only [opLoad, areaOf_some ha, chanOf_chanCode, yesNo_boolCode, if_pos hb]

end

/-! What the reading requests read. -/

/-- Within its area a run of bytes reads as the store holds it (R150, R163). -/
theorem areaSlice_reads (st : Store) (a : Fin 8) {offset n : Nat} (h : offset + n ≤ 4096) :
    st.areaSlice a offset n = (List.range n).map fun i => memRead st.mem (4096 * a.val + offset + i) := by
  refine List.map_congr_left fun i hi => ?_
  have hin : offset + i < Config.areaBytes := Nat.lt_of_lt_of_le (by simpa using hi) h
  rw [Store.areaByte, if_pos hin, areaAddr, Nat.add_assoc]
  rfl

theorem areaByte_reads (st : Store) (a : Fin 8) {i : Nat} (h : i < 4096) :
    st.areaByte a i = memRead st.mem (4096 * a.val + i) := if_pos h

theorem firstUsed_none {st : Store} (h : ∀ i, i < 4096 → memRead st.mem (4096 * a.val + i) = 0xFF#8) :
    st.firstUsed a = none := by
  refine List.find?_eq_none.mpr fun i hi => ?_
  have hlt : i < 4096 := List.mem_range.mp hi
  simp [areaByte_reads st a hlt, h i hlt, Config.erased]

theorem firstUsed_some {st : Store} {i : Nat} (hi : i < 4096) (hu : memRead st.mem (4096 * a.val + i) ≠ 0xFF#8)
    (hb : ∀ j, j < i → memRead st.mem (4096 * a.val + j) = 0xFF#8) : st.firstUsed a = some i := by
  refine List.find?_range_eq_some.mpr ⟨?_, List.mem_range.mpr hi, fun j hj => ?_⟩
  · simpa [areaByte_reads st a hi, Config.erased] using hu
  · simp [areaByte_reads st a (hj.trans hi), hb j hj, Config.erased]

/-- An area has no record that autostart takes: it is not VALID, is revoked, or was committed without autostart
(R162, R181). -/
theorem autostartRec_none {d : Dir} (h : d.st ≠ .valid ∨ d.revoked = true ∨
    ∀ rec, d.commit = some rec → rec.autostart = false) : d.autostartRec = none := by
  unfold Dir.autostartRec
  split
  · rename_i hd
    obtain ⟨hv, hr⟩ := hd
    have hauto := (h.resolve_left (not_not_intro hv)).resolve_left (by simp [hr])
    refine Option.bind_eq_none_iff.mpr fun rec hrec => ?_
    simp [hauto rec hrec]
  · rfl

theorem autostartRec_some {d : Dir} {rec : CommitRec} (hv : d.st = .valid) (hr : d.revoked = false)
    (hc : d.commit = some rec) (ha : rec.autostart = true) : d.autostartRec = some rec := by
  simp [Dir.autostartRec, hv, hr, hc, ha]

end Sys2Proof.Machine

open Sys2Proof.Machine

/-- Settles O33: the engine is looked at as soon as the fields are in range. -/
theorem storeBusyRefuses : Obligations.StoreBusyRefuses := by
  intro s r area hlt e hb
  have ha : (⟨area.toNat, hlt⟩ : Fin 8).val = area.toNat := rfl
  refine ⟨fun ht => request_next ht ?_, fun chunk data hc ht => request_next ht ?_, fun au c sa ht => request_next ht ?_,
    fun ht => request_next ht ?_, fun offset n ht h1 h2 h3 => request_next ht ?_, fun ht => request_next ht ?_,
    fun first last ht h1 h2 => request_next ht ?_, fun ht => request_next ht ?_, fun c st ht => request_next ht ?_⟩
  · exact (opStoreErase_area ha).trans (if_pos hb)
  · exact (opStoreWrite_area ha hc data).trans (if_pos hb)
  · exact (opStoreCommit_area ha au c sa).trans (if_pos hb)
  · exact (opStoreRevoke_area ha).trans (if_pos hb)
  · exact (opStoreRead_area ha h1 h2 h3).trans (if_pos hb)
  · exact (opStoreBlank_area ha).trans (if_pos hb)
  · exact (opStoreDigest_area ha h1 h2).trans (if_pos hb)
  · exact if_pos hb
  · exact opLoad_busy ha hb c st

/-- Settles O32: the checks of Table 9-6 in their order. -/
theorem storeRequestsTaken : Obligations.StoreRequestsTaken := by
  constructor
  · intro s r area e
    exact ⟨fun h ht => request_next ht (opStoreErase_bad h),
      fun chunk data h ht => request_next ht (opStoreWrite_bad h data),
      fun au c sa h ht => request_next ht (opStoreCommit_bad h), fun h ht => request_next ht (opStoreRevoke_bad h)⟩
  intro s r area a ha e hidle d begun
  refine ⟨fun ht => ?_, fun chunk data ht => ⟨fun hc => request_next ht (opStoreWrite_bad (.inr hc) data),
    fun hc hst => ?_, fun hc hst => ?_⟩, fun au c sa ht => ?_, fun ht => ?_⟩
  · have hop := opStoreErase_area (s := e) (seq := r.seq) (wp := r.pins.wp) ha
    rw [if_neg (not_not_intro hidle)] at hop
    refine ⟨fun hw => request_next ht (hop.trans (if_pos hw)), fun hw hwp => ?_, fun hw hwp => ?_⟩
    all_goals rw [if_neg (Nat.not_le.mpr hw)] at hop
    · exact request_next ht (hop.trans (if_pos hwp))
    · exact request_next ht (hop.trans (if_neg (Bool.eq_false_iff.mp hwp)))
  · have hop := opStoreWrite_area (s := e) (seq := r.seq) (wp := r.pins.wp) ha hc data
    have hno : d.st ≠ .blank ∧ d.st ≠ .opened := by rcases hst with h | h <;> rw [h] <;> decide
    rw [if_neg (not_not_intro hidle), if_pos hno] at hop
    exact request_next ht hop
  · have hop := opStoreWrite_area (s := e) (seq := r.seq) (wp := r.pins.wp) ha hc data
    have hyes : ¬(d.st ≠ .blank ∧ d.st ≠ .opened) := fun ⟨hb, ho⟩ => hst.elim hb ho
    rw [if_neg (not_not_intro hidle), if_neg hyes] at hop
    refine ⟨fun hw => request_next ht (hop.trans (if_pos hw)), fun hw hwp => ?_, fun hw hwp => ?_⟩
    all_goals rw [if_neg hw] at hop
    · exact request_next ht (hop.trans (if_pos hwp))
    · exact request_next ht (hop.trans (if_neg (Bool.eq_false_iff.mp hwp)))
  · have hop := opStoreCommit_area (s := e) (seq := r.seq) (wp := r.pins.wp) ha au c sa
    rw [if_neg (not_not_intro hidle)] at hop
    refine ⟨fun hst => request_next ht (hop.trans (if_pos hst)), fun hst hwp => ?_, fun hst hwp => ?_⟩
    all_goals rw [if_neg (not_not_intro hst)] at hop
    · exact request_next ht (hop.trans (if_pos hwp))
    · exact request_next ht (hop.trans (if_neg (Bool.eq_false_iff.mp hwp)))
  · have hop := opStoreRevoke_area (s := e) (seq := r.seq) (wp := r.pins.wp) ha
    rw [if_neg (not_not_intro hidle)] at hop
    refine ⟨fun h => request_next ht (hop.trans (if_pos (autostartRec_none h))), fun rec hv hr hc hauto => ?_⟩
    have hsome : d.autostartRec ≠ none := by simp [autostartRec_some hv hr hc hauto]
    rw [if_neg hsome] at hop
    exact ⟨fun hwp => request_next ht (hop.trans (if_pos hwp)),
      fun hwp => request_next ht (hop.trans (if_neg (Bool.eq_false_iff.mp hwp)))⟩

/-- Settles O34: within an area every byte reads as the store holds it. -/
theorem storeReadingAnswers : Obligations.StoreReadingAnswers := by
  constructor
  · intro s r area e
    exact ⟨fun offset n h ht => request_next ht (opStoreRead_bad h), fun h ht => request_next ht (opStoreBlank_bad h),
      fun first last h ht => request_next ht (opStoreDigest_bad h)⟩
  intro s r e hidle
  refine ⟨fun area a offset n ha ht h1 h2 h3 => request_next ht ?_,
    fun area a ha ht => ⟨fun h => request_next ht ?_, fun i hi hu hb => request_next ht ?_⟩,
    fun area first last a ha ht h1 h2 => request_next ht ?_, fun ht => request_next ht ?_⟩
  · rw [opStoreRead_area ha h1 h2 h3, if_neg (not_not_intro hidle), areaSlice_reads _ a h3]
    rfl
  · rw [opStoreBlank_area ha, if_neg (not_not_intro hidle), firstUsed_none h]
    rfl
  · rw [opStoreBlank_area ha, if_neg (not_not_intro hidle), firstUsed_some hi hu hb]
    rfl
  · rw [opStoreDigest_area ha h1 h2, if_neg (not_not_intro hidle), areaSlice_reads _ a (by omega)]
    rfl
  · rw [opStoreInfo, if_neg (not_not_intro hidle)]
    rfl

end

section
/-! The acceptance of a load, asked for by LOAD (R170, R171) or by a step of autostart (R182, R183). -/

open Sys2Proof

namespace Sys2Proof.Machine

variable {s t : State} {k : LoadCtx} {rec : CommitRec} {x : AutoArea}

/-! What an acceptance leaves beside `LoadTaken`. -/

/-- The slot-use set of the area's commit record is reserved (R171). -/
theorem LoadTaken.reserves (h : LoadTaken s t k) (hrec : (s.store.dir k.area).commit = some rec) (i : Fin 48) :
    t.slot i = { s.slot i with reserved := rec.slotUse.getLsbD i.val } := by
  rw [h.slot, hrec]
  rfl

theorem acceptLoad_link (s : State) (k : LoadCtx) : (s.acceptLoad k).link = s.link := by
  simp [State.acceptLoad, State.reserve]

theorem acceptLoad_reports (h : (s.chan k.chan).st = .idle) :
    (s.acceptLoad k).reports = s.reports.make (.channelState k.chan .loading) := by
  rw [State.acceptLoad, State.setEngine_reports, enter_reports, reserve_chan, loader_chan, h, reserve_reports]
  rfl

/-! The checks of LOAD in their order (Table 10-1). -/

theorem opLoad_bad {area channel start seq : Byte} (h : 8 ≤ area.toNat ∨ 2 ≤ channel.toNat ∨ 2 ≤ start.toNat) :
    opLoad area channel start seq s = refuse .badValue s := by
  unfold opLoad
  split
  · rename_i ha hc hst
    rcases h with h | h | h
    · simp [areaOf_none h] at ha
    · simp [chanOf_none h] at hc
    · simp [yesNo_none h] at hst
  · rfl

theorem opLoad_area {area seq : Byte} {a : Fin 8} (ha : a.val = area.toNat) (hi : s.store.engine = .idle) (c : Chan)
    (st : Bool) : opLoad area (chanCode c) (boolCode st) seq s =
      if (s.store.dir a).st ≠ .valid then refuse .areaState s
      else if (s.chan c).st ≠ .idle then refuse .notIdle s
      else (s.acceptLoad { area := a, chan := c, start := st, seq := seq }, [statusCode .started]) := by
  simp only [opLoad, areaOf_some ha, chanOf_chanCode, yesNo_boolCode, if_neg (not_not_intro hi)]

/-! One step of autostart (R182). -/

/-- The area at the next position is taken: the position moves on and the engine reads (R182). -/
def State.takeAuto (s : State) : State :=
  State.setEngine { s with loader := { s.loader with autoPos := s.loader.autoPos + 1 } } .reading

theorem exec_autostartStep (s : State) : exec .autostartStep s = execAutostartStep s := rfl

theorem execAutostart_undue (h : s.store.engine ≠ .idle ∨ s.nextAuto = none) :
    exec .autostartStep s = .next s := by
  have hd : s.autoDue = false := by
    rcases h with h | h <;> simp [State.autoDue, h]
  rw [exec_autostartStep, execAutostartStep]
  split
  · rw [takeIf_undue hd]
  · rfl

theorem execAutostart_due (hi : s.store.engine = .idle) (hx : s.nextAuto = some x) :
    exec .autostartStep s = .next (s.autoStep x).finish := by
  have hd : s.autoDue = true := by simp [State.autoDue, hi, hx]
  simp only [exec_autostartStep, execAutostartStep, hx, takeIf_due hd]

/-- An area without a commit record ends its step for the channel it was listed with (assumption log 27). -/
theorem autoStep_unrecorded (h : (s.store.dir x.area).commit = none) : s.autoStep x = s.takeAuto.report
    (.loadDone 0#8 x.chan x.area .areaState (if x.chosen then 0xFF#8 else 0xFE#8)) := by
  have hno : (s.store.dir x.area).autostartRec = none := autostartRec_none (.inr (.inr (by simp [h])))
  cases hch : x.chosen <;> simp [State.autoStep, hch, hno, h, State.takeAuto]

section

variable (hrec : (s.store.dir x.area).commit = some rec)
include hrec

theorem autoStep_unchosen (hch : x.chosen = false) :
    s.autoStep x = s.takeAuto.report (.loadDone 0#8 rec.chan x.area .areaState 0xFE#8) := by
  simp [State.autoStep, hch, hrec, State.takeAuto]

/-- A chosen area that autostart no longer takes (R182, R183). -/
theorem autoStep_unfit (hch : x.chosen = true) (h : (s.store.dir x.area).autostartRec = none) :
    s.autoStep x = s.takeAuto.report (.loadDone 0#8 rec.chan x.area .areaState 0xFF#8) := by
  simp [State.autoStep, hch, hrec, h, State.takeAuto]

theorem autoStep_chosen (hch : x.chosen = true) (h : (s.store.dir x.area).autostartRec = some rec) :
    s.autoStep x =
      if (s.chan rec.chan).st ≠ .idle then
        s.takeAuto.report (.loadDone 0#8 rec.chan x.area .notIdle 0xFF#8)
      else s.takeAuto.acceptLoad { area := x.area, chan := rec.chan, start := rec.startAfter, seq := 0#8 } := by
  simp [State.autoStep, hch, hrec, h, State.takeAuto]

end

theorem takeAuto_chan (s : State) (c : Chan) : s.takeAuto.chan c = s.chan c := by
  rw [State.takeAuto, State.setEngine_chan, loader_chan]

end Sys2Proof.Machine

open Sys2Proof.Machine

/-- Settles O40: with the fields in range and the engine IDLE, each check met takes off one branch of `opLoad_area`. -/
theorem loadAccepted : Obligations.LoadAccepted := by
  intro s r area channel start ht e
  refine ⟨fun h => request_next ht (opLoad_bad h), ?_⟩
  rintro a c st ha rfl rfl hidle
  have hop := opLoad_area (seq := r.seq) ha hidle c st
  refine ⟨fun hv => request_next ht (hop.trans (if_pos hv)), fun hv hc => ?_, fun rec hv hrec hc => ?_⟩
  all_goals rw [if_neg (not_not_intro hv)] at hop
  · exact request_next ht (hop.trans (if_pos hc))
  · rw [if_neg (not_not_intro hc)] at hop
    have hk := acceptLoad_taken e { area := a, chan := c, start := st, seq := r.seq }
    exact ⟨_, request_next ht hop, hk.loader, hk.reserves hrec, hk.own, hk.other, hk.store, acceptLoad_reports hc,
      hk.epoch, acceptLoad_link e _⟩

/-- Settles O41: a step that passes accepts its load in the state in which the area has been taken. -/
theorem autostartSteps : Obligations.AutostartSteps := by
  intro s
  refine ⟨execAutostart_undue, ?_⟩
  intro x hidle hx ended
  have hexec := execAutostart_due hidle hx
  have ends {c : Chan} {st : Status} {detail : Byte}
      (h : s.autoStep x = s.takeAuto.report (.loadDone 0#8 c x.area st detail)) :
      exec .autostartStep s = .next (ended c st detail) := by
    rw [hexec, h]
    rfl
  refine ⟨fun hn => ends (autoStep_unrecorded hn), ?_⟩
  intro rec hrec failed
  refine ⟨fun hch => ends (autoStep_unchosen hrec hch), fun hch hbad => ends (autoStep_unfit hrec hch ?_),
    fun hch hv hr ha => ?_⟩
  · exact autostartRec_none (hbad.imp_right (.imp_right fun h rec' hrec' =>
      Option.some.inj (hrec.symm.trans hrec') ▸ h))
  · have hstep := autoStep_chosen hrec hch (autostartRec_some hv hr hrec ha)
    refine ⟨fun hc => ends (hstep.trans (if_pos hc)), fun hc => ?_⟩
    rw [if_neg (not_not_intro hc)] at hstep
    have hk := acceptLoad_taken s.takeAuto { area := x.area, chan := rec.chan, start := rec.startAfter, seq := 0#8 }
    refine ⟨_, hexec.trans (congrArg _ (congrArg _ hstep)), hk.loader, hk.reserves hrec, ?_, ?_, hk.store,
      acceptLoad_reports ((congrArg _ (takeAuto_chan s _)).trans hc), hk.epoch, acceptLoad_link _ _⟩
    · exact takeAuto_chan s rec.chan ▸ hk.own
    · exact takeAuto_chan s (chanOther rec.chan) ▸ hk.other

end

section
/-! The step by the two forms of the queue: a command at its front, or none (assumption log 4). -/

open Sys2Proof

namespace Sys2Proof.Machine

/-- The rest of the queue is put back before the command is run, so the command sees the state without itself. -/
theorem step_front (c : Instr) (s : State) : step { s with pending := c :: s.pending } = exec c s := rfl

theorem step_empty {s : State} (h : s.pending = []) : step s = .next s := by
  rw [step, h]

end Sys2Proof.Machine

open Sys2Proof.Machine

/-- Settles O1: by the form of the queue. -/
theorem stepRunsFrontCommand : Obligations.StepRunsFrontCommand :=
  ⟨step_front, fun _ => step_empty⟩

end
